-- ==== Sys2Proof/Word.lean ====
section
/-!
DEFINITION. The block's word: every slot of the register space and every command word is 64 bits (R50, R70).
-/

namespace Sys2Proof

/-- One 64-bit slot value or command word (R51: every host access moves one whole 64-bit slot). -/
abbrev Word := BitVec 64

/-- One 7-bit field of CFG, and the divider's cursor (R22, R29). -/
abbrev Field := BitVec 7

end Sys2Proof
end

