-- ==== Sys2Proof/Config.lean ====
section
/-!
DEFINITION. The implementation's parameters (R6, R7; 92_eei_decisions.md D2, D10, D28): what is fixed for one machine.
-/

namespace Sys2Proof

/-- The even-generator policy EVEN_GEN (R7): `fault` treats a generator with bit 0 clear as a precondition
violation, `compute` gives it the same arithmetic as any other. -/
inductive EvenGen where
  | fault
  | compute
  deriving DecidableEq, Repr

/-- The parameters W and EVEN_GEN of one implementation (R6, R7), with W in its legal range 1 to 64. -/
structure Params where
  W : Nat
  evenGen : EvenGen
  one_le_W : 1 ≤ W
  W_le : W ≤ 64
  deriving DecidableEq, Repr

/-- The spec's defaults: W = 64 (R6) and EVEN_GEN = Fault (R7). -/
def Params.default : Params :=
  { W := 64, evenGen := .fault, one_le_W := by decide, W_le := by decide }

/-- HOST_BASE (92_eei_decisions.md D28): where the host places the 8 slots in its own address space. The spec
gives it no value and no rule reads it (R56), so it is opaque and nothing in the model uses it (log entry 2). -/
opaque Config.hostBase : Nat

end Sys2Proof
end

