-- ==== Sys2Proof/Syntax.lean ====
section
/-!
DEFINITION. The commands, the slots, the host's accesses and the lines of a host program, as syntax.
-/

namespace Sys2Proof

/-- The commands: one constructor for each row of the opcode map (R72). A command carries no operand (R70): every
operand comes from the operand registers (R75). -/
inductive Instr where
  | nop
  | divide
  | computeFcs
  | verify
  deriving DecidableEq, Repr

/-- The outcome of decoding a command word (R71): one of the four commands, or `illegal` (R73: a model decodes an
illegal word to its own outcome, never to a guessed command). -/
inductive Decoded where
  | legal (i : Instr)
  | illegal
  deriving DecidableEq, Repr

/-- The names of the 8 slots of the host register space (R50, R77). -/
inductive Slot where
  | cmd
  | status
  | gen
  | cfg
  | data
  | fcs
  | result
  | slot7
  deriving DecidableEq, Repr

/-- One access of the host: the triple (kind, slot index, value) of R77. `write i v` is HostWrite(i, v) (R52),
`read i` is HostRead(i) (R53), `reset` is the reset event (R190). -/
inductive Access where
  | write (i : BitVec 3) (v : Word)
  | read (i : BitVec 3)
  | reset
  deriving DecidableEq, Repr

/-- One line of a host program (R77) and the pseudo-instructions (R78). A literal is the number written, before
the check that it fits 64 bits. -/
inductive Line where
  | wr (slot : Slot) (value : Nat)
  | rd (slot : Slot)
  | reset
  | command (i : Instr)
  | setcfg (deg k total : Nat)
  | frame (g deg k data : Nat)
  deriving DecidableEq, Repr

/-- Why a line of a host program does not assemble: a literal of more than 64 bits (R77), a SETCFG or FRAME field
over 127 (R78), or text that is no line of R77's syntax. -/
inductive AsmError where
  | literalTooWide
  | fieldOutOfRange
  | badSyntax
  deriving DecidableEq, Repr

end Sys2Proof
end

