-- ==== Sys2Proof/WellFormed.lean ====
section
/-!
DEFINITION. Well-formedness: of a command, of a command word as bits, and of a line of a host program.
-/

namespace Sys2Proof

/-- Every command is well formed: it has no field that could be out of range (R70). -/
def Instr.wf (i : Instr) : Bool :=
  match i with
  | .nop => true
  | .divide => true
  | .computeFcs => true
  | .verify => true

/-- RSV, bits [63:4], must be 0 in every legal command word (R70). -/
def rsvIsZero (w : Word) : Bool := w.toNat / 16 == 0

/-- OPC, bits [3:0], is one of the four assigned operation codes (R72). -/
def opcIsAssigned (w : Word) : Bool := w.toNat % 16 ≤ 3

/-- A legal command word (R70, R73), as a check on its bits alone. -/
def commandWordWf (w : Word) : Bool := rsvIsZero w && opcIsAssigned w

/-- A literal is zero-extended to 64 bits and may not be longer (R77). -/
def literalWf (v : Nat) : Bool := v < 2 ^ 64

/-- A field of SETCFG is in 0..127 (R78). -/
def fieldWf (v : Nat) : Bool := v ≤ 127

/-- The literals of a line that R77 bounds. A field of SETCFG or FRAME has the tighter bound of `Line.fieldsWf`. -/
def Line.literalsWf (l : Line) : Bool :=
  match l with
  | .wr _ v => literalWf v
  | .rd _ => true
  | .reset => true
  | .command i => i.wf
  | .setcfg _ _ _ => true
  | .frame g _ _ data => literalWf g && literalWf data

/-- The fields of a line that R78 bounds. -/
def Line.fieldsWf (l : Line) : Bool :=
  match l with
  | .wr _ _ => true
  | .rd _ => true
  | .reset => true
  | .command _ => true
  | .setcfg deg k total => fieldWf deg && fieldWf k && fieldWf total
  | .frame _ deg k _ => fieldWf deg && fieldWf k

/-- A line that assembles (R77, R78). -/
def Line.wf (l : Line) : Bool := l.literalsWf && l.fieldsWf

end Sys2Proof
end

