-- ==== Sys2Proof/Decode.lean ====
section
/-!
DEFINITION. Decoding of command words (R71) and its inverse, the slot index map (R50), and the host's view of the
opcode table.
-/

namespace Sys2Proof

/-- OPC, bits [3:0] of a command word (R70). -/
def opcField (w : Word) : BitVec 4 := w.extractLsb' 0 4

/-- RSV, bits [63:4] of a command word (R70). -/
def rsvField (w : Word) : BitVec 60 := w.extractLsb' 4 60

/-- Decode(w) (R71): total on every 64-bit word. -/
def decode (w : Word) : Decoded :=
  if rsvField w ≠ 0 then .illegal
  else if opcField w = 0x0 then .legal .nop
  else if opcField w = 0x1 then .legal .divide
  else if opcField w = 0x2 then .legal .computeFcs
  else if opcField w = 0x3 then .legal .verify
  else .illegal

/-- OPC of each command (R72). -/
def opcOf (i : Instr) : BitVec 4 :=
  match i with
  | .nop => 0x0
  | .divide => 0x1
  | .computeFcs => 0x2
  | .verify => 0x3

/-- The command word of a command: RSV = 0 above its OPC (R70, R72). -/
def encode (i : Instr) : Word := (0 : BitVec 60) ++ opcOf i

/-- The index of each slot (R50). -/
def Slot.index (slot : Slot) : BitVec 3 :=
  match slot with
  | .cmd => 0
  | .status => 1
  | .gen => 2
  | .cfg => 3
  | .data => 4
  | .fcs => 5
  | .result => 6
  | .slot7 => 7

/-- The slot at an index (R50): every 3-bit index names one. -/
def Slot.ofIndex (i : BitVec 3) : Slot :=
  if i = 0 then .cmd
  else if i = 1 then .status
  else if i = 2 then .gen
  else if i = 3 then .cfg
  else if i = 4 then .data
  else if i = 5 then .fcs
  else if i = 6 then .result
  else .slot7

/-- The bits the opcode table gives a row, as a number: every bit at or above `nbits` is 0. -/
def tableBits (nbits w : Nat) : Nat := w % 2 ^ nbits

/-- What the decoder reads from an instruction whose bits are `w` as spec/opcode_table.json numbers them. A command
is one 64-bit word (R70), so bits beyond it belong to no command. -/
def decodeTableWord (nbits w : Nat) : Option Instr :=
  if tableBits nbits w < 2 ^ 64 then
    match decode (BitVec.ofNat 64 (tableBits nbits w)) with
    | .legal i => some i
    | .illegal => none
  else none

end Sys2Proof
end

