-- ==== Sys2Proof/Machine/State.lean ====
section
/-!
DEFINITION. The machine's state (R20), the model's fault record (R34, R171), the reasons a step can stop, and the
state after reset (R190 to R192).
-/

namespace Sys2Proof.Machine

/-- The reasons of the model's faults (R171). -/
inductive FaultReason where
  | degRange
  | lenRange
  | genTop
  | genHigh
  | genEven
  deriving DecidableEq, Repr

/-- What the model records of a fault (R171, column 'records'): the command word, and the operands the failing row
names. LEN_RANGE has two rows there, one for DIVIDE and one for the codec commands. -/
inductive FaultRecord where
  | degRange (word : Word) (deg : Field)
  | lenRangeDivide (word : Word) (deg total : Field)
  | lenRangeCodec (word : Word) (deg k : Field)
  | genTop (word : Word) (deg : Field) (gen : Word)
  | genHigh (word : Word) (deg : Field) (gen : Word)
  | genEven (word : Word) (gen : Word)
  deriving DecidableEq, Repr

/-- The state of one CRCDIV instance (R20) and of its host's side. CMD and slot 7 store nothing (R27, R28) and so
have no field; the reserved bits of CFG and STATUS have none either (R22, R26). -/
structure State where
  /-- STATUS.DONE, bit 0 (R26). -/
  done : Bool
  /-- STATUS.ZERO, bit 1 (R26). -/
  zero : Bool
  /-- STATUS.ILL, bit 2 (R26). -/
  ill : Bool
  /-- GEN, slot 2 (R21). -/
  gen : Word
  /-- CFG.DEG, CFG[6:0] of slot 3 (R22). -/
  deg : Field
  /-- CFG.K, CFG[14:8] of slot 3 (R22). -/
  k : Field
  /-- CFG.TOTAL, CFG[22:16] of slot 3 (R22). -/
  total : Field
  /-- DATA, slot 4 (R23). -/
  data : Word
  /-- FCS, slot 5 (R24). -/
  fcs : Word
  /-- RESULT, slot 6 (R25). -/
  result : Word
  /-- The divider's working register (R29): W bits, held here in 64; between commands it keeps the value at which
  the last division ended (log entry 8). -/
  op : Word
  /-- The divider's bit cursor (R29), kept between commands as `op` is (log entry 8). -/
  cur : Field
  /-- The model's fault record (R34). -/
  fault : Option FaultRecord
  /-- The implementation's parameters W and EVEN_GEN (R6, R7): no step changes them (log entry 1). -/
  params : Params
  /-- The host accesses not yet made, oldest first: the model's own field for the host's side (log entry 3). -/
  pending : List Access
  /-- The values the host's reads have returned, oldest first: the model's own field (log entry 4). -/
  returned : List Word
  deriving DecidableEq, Repr

/-- Why a step stops with a model fault (R171): the first failing row of R101 (DIVIDE) or R134 (COMPUTE_FCS,
VERIFY). Each carries the state in which the step leaves the machine: its `fault` field holds the record, and no
register is written (log entry 5). Every one is SAFE: it stands for any RESULT, any STATUS and for a command that
never completes (R173), so nothing is claimed where the source says "undefined" (log entry 7). -/
inductive Fault where
  /-- DEG_RANGE (code 1), raised by DIVIDE, COMPUTE_FCS and VERIFY when CFG.DEG > W - 1. Safe. -/
  | degRange (left : State)
  /-- LEN_RANGE (code 2), raised by DIVIDE when TOTAL < DEG or TOTAL > W, and by COMPUTE_FCS and VERIFY when
  K + DEG > W. Safe. -/
  | lenRange (left : State)
  /-- GEN_TOP (code 3), raised by DIVIDE, COMPUTE_FCS and VERIFY when GEN[DEG] = 0. Safe. -/
  | genTop (left : State)
  /-- GEN_HIGH (code 4), raised by DIVIDE, COMPUTE_FCS and VERIFY when GEN >= 2^(DEG+1). Safe. -/
  | genHigh (left : State)
  /-- GEN_EVEN (code 5), raised by DIVIDE, COMPUTE_FCS and VERIFY when GEN[0] = 0, only under EVEN_GEN = Fault.
  Safe. -/
  | genEven (left : State)
  deriving DecidableEq, Repr

/-- Why a step is refused. No command of this model is: every row of the opcode table has its meaning. -/
inductive Refusal where
  /-- An instruction without a meaning yet; only an arm of `exec` raises it, and no arm does. Safe. -/
  | notModelled (mnemonic : String)
  deriving DecidableEq, Repr

/-- The state at power-on (R191), which is the state after a reset (R190, R192) with no fault recorded (R34), the
spec's default parameters, and nothing on the host's side. -/
def State.reset : State :=
  { done := false, zero := false, ill := false
    gen := 0, deg := 0, k := 0, total := 0, data := 0, fcs := 0, result := 0
    op := 0, cur := 0
    fault := none
    params := Params.default
    pending := [], returned := [] }

end Sys2Proof.Machine
end

