-- ==== Sys2Proof/Machine/Operands.lean ====
section
/-!
DEFINITION. Bit slices, masks and concatenation (R9 to R11), the fields of a value written to CFG (R22), and the
operands each command assembles from the registers (R75).
-/

namespace Sys2Proof.Machine

/-- mask_n(v) = v[n-1:0] (R9); 0 when n = 0. -/
def maskN (n v : Nat) : Nat := v % 2 ^ n

/-- The slice of `width` bits of `v` from bit `lo` up, v[lo+width-1:lo] (R9); 0 when the width is 0. -/
def slice (width lo v : Nat) : Nat := (v >>> lo) % 2 ^ width

/-- The value bit s[n-1-j] at stream position `j` of the n-bit stream `s`, read most-significant-bit first (R10). -/
def streamBit (n s j : Nat) : Nat := slice 1 (n - 1 - j) s

/-- a ‖ b for b of declared width m (R11). -/
def concat (a m b : Nat) : Nat := (a <<< m) ||| b

/-- DEG of a value written to CFG: bits [6:0] (R22). -/
def cfgDeg (v : Word) : Field := v.extractLsb' 0 7

/-- K of a value written to CFG: bits [14:8] (R22). -/
def cfgK (v : Word) : Field := v.extractLsb' 8 7

/-- TOTAL of a value written to CFG: bits [22:16] (R22). -/
def cfgTotal (v : Word) : Field := v.extractLsb' 16 7

/-- The value of CFG that holds these fields, its reserved bits 0 (R22, R53). -/
def cfgWord (deg k total : Field) : Word :=
  (total.setWidth 64 <<< 16) ||| (k.setWidth 64 <<< 8) ||| deg.setWidth 64

/-- r, the degree (R75). -/
def State.degreeOp (s : State) : Nat := s.deg.toNat

/-- k, the data width of the codec commands (R75). -/
def State.dataWidthOp (s : State) : Nat := s.k.toNat

/-- n, the stream length of DIVIDE (R75). -/
def State.streamLengthOp (s : State) : Nat := s.total.toNat

/-- g, the generator (R75). -/
def State.generatorOp (s : State) : Nat := s.gen.toNat

/-- The bitstream of DIVIDE and the data of the codec commands, before any mask (R75). -/
def State.dataOp (s : State) : Nat := s.data.toNat

/-- The candidate FCS of VERIFY, before its mask (R75). -/
def State.fcsOp (s : State) : Nat := s.fcs.toNat

end Sys2Proof.Machine
end

