-- ==== Sys2Proof/Machine/Divider.lean ====
section
/-!
DEFINITION. The Polynomial Divider (R100 to R116): preconditions, window, micro-step, run, result, and the split
form. Pure functions over naturals (R12), as the spec writes them.
-/

namespace Sys2Proof.Machine

/-- The divider's internal state: the working register and the bit cursor (R29). -/
structure Divider where
  op : Nat
  cur : Nat
  deriving DecidableEq, Repr

/-- The outcome of one micro-step (R104): Step(op, cur) or Done(op). -/
inductive Micro where
  | step (d : Divider)
  | finished (op : Nat)
  deriving DecidableEq, Repr

/-- A completed division: the remainder it returns (R106), and the internal state at which it ended. -/
structure Division where
  rem : Nat
  last : Divider
  deriving DecidableEq, Repr

/-- Rows 3 to 5 of R101 and R134: the generator's top bit, its high bits and, under EVEN_GEN = Fault, its low bit. -/
def checkGenerator (p : Params) (g r : Nat) : Option FaultReason :=
  if g.testBit r = false then some .genTop
  else if ¬ g < 2 ^ (r + 1) then some .genHigh
  else if p.evenGen = .fault ∧ g.testBit 0 = false then some .genEven
  else none

/-- The preconditions of Divide in the order of R101; the first that fails names the fault. -/
def checkDivider (p : Params) (n g r : Nat) : Option FaultReason :=
  if ¬ r ≤ p.W - 1 then some .degRange
  else if ¬ (r ≤ n ∧ n ≤ p.W) then some .lenRange
  else checkGenerator p g r

/-- Initialization (R103) on the masked stream: the window of the first r+1 bits or, when n = r, the whole stream. -/
def dividerInit (n s r : Nat) : Divider :=
  if r + 1 ≤ n then { op := slice (r + 1) (n - (r + 1)) s, cur := r + 1 }
  else { op := s, cur := n }

/-- One micro-step (R104) on the masked stream: reduction, bring-down or done, tested in this order. `op` is held
in W bits (R29), so a bring-down keeps the low W bits of the shift. -/
def dividerStep (W n s g r : Nat) (d : Divider) : Micro :=
  if d.op.testBit r then .step { op := d.op ^^^ g, cur := d.cur }
  else if d.cur < n then .step { op := maskN W ((d.op <<< 1) ||| streamBit n s d.cur), cur := d.cur + 1 }
  else .finished d.op

/-- At most `fuel` micro-steps (R105): it stops early exactly where a micro-step answers Done, and `fuel` steps on
it stands where the division then is. -/
def dividerRun (W n s g r : Nat) (fuel : Nat) (d : Divider) : Divider :=
  match fuel with
  | 0 => d
  | fuel + 1 =>
    match dividerStep W n s g r d with
    | .step d' => dividerRun W n s g r fuel d'
    | .finished _ => d

/-- The number of micro-steps that ends every division that meets R101 (R110): 2(n - w) + 1 for an initial
cursor w. -/
def dividerFuel (n r : Nat) : Nat := 2 * (n - min n (r + 1)) + 1

/-- Where the division of the masked stream ends (R103 to R105). -/
def dividerEnd (W n s g r : Nat) : Divider :=
  dividerRun W n (maskN n s) g r (dividerFuel n r) (dividerInit n (maskN n s) r)

/-- Divide(s, n, g, r) (R107): the check, the division, and the remainder op[r-1:0] (R106). -/
def divide (p : Params) (s n g r : Nat) : Except FaultReason Division :=
  match checkDivider p n g r with
  | some why => .error why
  | none =>
    let d := dividerEnd p.W n s g r
    .ok { rem := maskN r d.op, last := d }

/-- The split form (R111): the first phase over the first `c` stream bits, the second from its `op` and `cur` over
the full stream, without a new initialization (R198). It is defined for r+1 ≤ c ≤ n only (U13); no command uses it. -/
def dividerSplit (W n s g r c : Nat) : Option Divider :=
  if r + 1 ≤ c ∧ c ≤ n then
    let s' := maskN n s
    some (dividerRun W n s' g r (dividerFuel n r) (dividerEnd W c (slice c (n - c) s') g r))
  else none

end Sys2Proof.Machine
end

