-- ==== Sys2Proof/Machine/Codec.lean ====
section
/-!
DEFINITION. The CRC Codec (R130 to R135): ComputeFCS, Syndrome and Verify as pure functions over Divide.
-/

namespace Sys2Proof.Machine

/-- CheckCodecPreconditions (R134), in its order; the first row that fails names the fault. -/
def checkCodec (p : Params) (k g r : Nat) : Option FaultReason :=
  if ¬ r ≤ p.W - 1 then some .degRange
  else if ¬ k + r ≤ p.W then some .lenRange
  else checkGenerator p g r

/-- The stream of ComputeFCS (R130): the data masked to k bits, then r zero bits. -/
def fcsStream (data k r : Nat) : Nat := concat (maskN k data) r 0

/-- The stream of Syndrome (R132): the data masked to k bits, then the FCS masked to r bits. -/
def syndromeStream (data k r fcs : Nat) : Nat := concat (maskN k data) r (maskN r fcs)

/-- ComputeFCS(data, k, g, r) (R130). -/
def computeFcs (p : Params) (data k g r : Nat) : Except FaultReason Division :=
  match checkCodec p k g r with
  | some why => .error why
  | none => divide p (fcsStream data k r) (k + r) g r

/-- Syndrome(data, k, g, r, fcs) (R132). -/
def syndrome (p : Params) (data k g r fcs : Nat) : Except FaultReason Division :=
  match checkCodec p k g r with
  | some why => .error why
  | none => divide p (syndromeStream data k r fcs) (k + r) g r

/-- Verify(data, k, g, r, fcs) (R131): true means the frame is accepted. -/
def verify (p : Params) (data k g r fcs : Nat) : Except FaultReason Bool :=
  match syndrome p data k g r fcs with
  | .error why => .error why
  | .ok d => .ok (d.rem == 0)

end Sys2Proof.Machine
end

