-- ==== Sys2Proof/Machine/Flags.lean ====
section
/-!
DEFINITION. The flags STATUS.DONE, ZERO and ILL (R26, R32): their values and the two ways a command writes them.
-/

namespace Sys2Proof.Machine

/-- ZERO after an operation with remainder `rem`: 1 when it is 0 (R26, R156). -/
def zeroFlag (rem : Nat) : Bool := rem == 0

/-- One bit as a slot value. -/
def bitWord (b : Bool) : Word := if b then 1 else 0

/-- The value a read of STATUS returns (R53): ILL in bit 2, ZERO in bit 1, DONE in bit 0, the rest 0. -/
def statusWord (done zero ill : Bool) : Word :=
  (bitWord ill <<< 2) ||| (bitWord zero <<< 1) ||| bitWord done

/-- STATUS.ILL <- b: what NOP (R151) and an illegal word (R155) write. -/
def State.setIll (b : Bool) (s : State) : State := { s with ill := b }

/-- The flags an operation writes when it completes (R156): DONE <- 1, ZERO <- (rem == 0), ILL <- 0. -/
def State.setOperationFlags (rem : Nat) (s : State) : State :=
  { s with done := true, zero := zeroFlag rem, ill := false }

end Sys2Proof.Machine
end

