-- ==== Sys2Proof/Machine/Ops.lean ====
section
/-!
DEFINITION. The named operations over the registers: writes and reads of the slots (R52, R53), the reset event
(R190), raising a model fault (R171) and completing an operation (R156).
-/

namespace Sys2Proof.Machine

/-- GEN <- v, all 64 bits verbatim (R21). -/
def State.setGen (v : Word) (s : State) : State := { s with gen := v }

/-- CFG <- v: the three fields are stored, the reserved bits discarded (R22). -/
def State.setCfg (v : Word) (s : State) : State :=
  { s with deg := cfgDeg v, k := cfgK v, total := cfgTotal v }

/-- DATA <- v, all 64 bits verbatim (R23). -/
def State.setData (v : Word) (s : State) : State := { s with data := v }

/-- FCS <- v, all 64 bits verbatim (R24). -/
def State.setFcs (v : Word) (s : State) : State := { s with fcs := v }

/-- RESULT <- zext_64(rem) (R25). -/
def State.setResult (rem : Nat) (s : State) : State := { s with result := BitVec.ofNat 64 rem }

/-- The divider's internal state as a division leaves it (R29, R100). -/
def State.setDivider (d : Divider) (s : State) : State :=
  { s with op := BitVec.ofNat 64 d.op, cur := BitVec.ofNat 7 d.cur }

/-- The model's fault record (R34). -/
def State.setFault (record : FaultRecord) (s : State) : State := { s with fault := some record }

/-- The host accesses still to come (log entry 3). -/
def State.setPending (accesses : List Access) (s : State) : State := { s with pending := accesses }

/-- A read hands its value to the host (R53; log entry 4). -/
def State.giveToHost (v : Word) (s : State) : State := { s with returned := s.returned ++ [v] }

/-- Reset() (R190): every register and the divider to 0. The fault record stays (R34), as do the parameters and
the host's side. -/
def State.resetEvent (s : State) : State :=
  { s with
    gen := 0, deg := 0, k := 0, total := 0, data := 0, fcs := 0, result := 0
    done := false, zero := false, ill := false
    op := 0, cur := 0 }

/-- The value HostRead returns for each slot (R53). -/
def readSlot (slot : Slot) (s : State) : Word :=
  match slot with
  | .cmd => 0
  | .status => statusWord s.done s.zero s.ill
  | .gen => s.gen
  | .cfg => cfgWord s.deg s.k s.total
  | .data => s.data
  | .fcs => s.fcs
  | .result => s.result
  | .slot7 => 0

/-- HostRead(i) (R53). -/
def hostRead (i : BitVec 3) (s : State) : Word := readSlot (Slot.ofIndex i) s

/-- The reason a record names (R171). -/
def FaultRecord.reason (f : FaultRecord) : FaultReason :=
  match f with
  | .degRange _ _ => .degRange
  | .lenRangeDivide _ _ _ => .lenRange
  | .lenRangeCodec _ _ _ => .lenRange
  | .genTop _ _ _ => .genTop
  | .genHigh _ _ _ => .genHigh
  | .genEven _ _ => .genEven

/-- The model's code of a reason (R171). -/
def FaultReason.code (why : FaultReason) : Nat :=
  match why with
  | .degRange => 1
  | .lenRange => 2
  | .genTop => 3
  | .genHigh => 4
  | .genEven => 5

/-- The record of the stream length row (R171): DIVIDE records TOTAL, the codec commands record K. -/
def lenRangeRecord (i : Instr) (s : State) : FaultRecord :=
  match i with
  | .nop => .lenRangeCodec (encode i) s.deg s.k
  | .divide => .lenRangeDivide (encode i) s.deg s.total
  | .computeFcs => .lenRangeCodec (encode i) s.deg s.k
  | .verify => .lenRangeCodec (encode i) s.deg s.k

/-- What the model records when command `i` fails for `why` (R171): the command word, and the operands it sampled
that the row names. NOP never faults (R172). -/
def faultRecord (i : Instr) (why : FaultReason) (s : State) : FaultRecord :=
  match why with
  | .degRange => .degRange (encode i) s.deg
  | .lenRange => lenRangeRecord i s
  | .genTop => .genTop (encode i) s.deg s.gen
  | .genHigh => .genHigh (encode i) s.deg s.gen
  | .genEven => .genEven (encode i) s.gen

/-- The fault of a reason, with the state the step leaves. -/
def faultOf (why : FaultReason) (left : State) : Fault :=
  match why with
  | .degRange => .degRange left
  | .lenRange => .lenRange left
  | .genTop => .genTop left
  | .genHigh => .genHigh left
  | .genEven => .genEven left

/-- raise Fault(reason) (R171): the record is written and no register is. -/
def raiseFault (i : Instr) (why : FaultReason) (s : State) : Fault :=
  faultOf why (s.setFault (faultRecord i why s))

/-- Complete(rem) (R156), with the divider's internal state as the division left it (R29). -/
def complete (d : Division) (s : State) : State :=
  ((s.setDivider d.last).setResult d.rem).setOperationFlags d.rem

/-- The end of an operation command (R152 to R154): Complete with the remainder, or the model fault that its check
raised. -/
def finishOperation (i : Instr) (r : Except FaultReason Division) (s : State) :
    Host.Outcome State Fault Refusal :=
  match r with
  | .error why => .fault (raiseFault i why s)
  | .ok d => .next (complete d s)

end Sys2Proof.Machine
end

