-- ==== Sys2Proof/Machine/Commands.lean ====
section
/-!
DEFINITION. The meanings of the commands (R151 to R154) and of an illegal word (R155).
-/

namespace Sys2Proof.Machine

/-- ExecNOP (R151). -/
def execNop (s : State) : Host.Outcome State Fault Refusal := .next (s.setIll false)

/-- ExecDIVIDE (R152). -/
def execDivide (s : State) : Host.Outcome State Fault Refusal :=
  finishOperation .divide
    (divide s.params s.dataOp s.streamLengthOp s.generatorOp s.degreeOp) s

/-- ExecCOMPUTE_FCS (R153). -/
def execComputeFcs (s : State) : Host.Outcome State Fault Refusal :=
  finishOperation .computeFcs
    (computeFcs s.params s.dataOp s.dataWidthOp s.generatorOp s.degreeOp) s

/-- ExecVERIFY (R154): the remainder is the syndrome, so ZERO is Verify's boolean. -/
def execVerify (s : State) : Host.Outcome State Fault Refusal :=
  finishOperation .verify
    (syndrome s.params s.dataOp s.dataWidthOp s.generatorOp s.degreeOp s.fcsOp) s

/-- ExecIllegal (R155): STATUS.ILL <- 1 and nothing else; neither a fault nor a trap. -/
def execIllegal (s : State) : Host.Outcome State Fault Refusal := .next (s.setIll true)

end Sys2Proof.Machine
end

