-- ==== Sys2Proof/Machine/Dispatch.lean ====
section
/-!
DEFINITION. One arm per command: each calls its meaning.
-/

namespace Sys2Proof.Machine

def exec (i : Instr) (s : State) : Host.Outcome State Fault Refusal :=
  match i with
  | .nop => Sys2Proof.Machine.execNop s
  | .divide => Sys2Proof.Machine.execDivide s
  | .computeFcs => Sys2Proof.Machine.execComputeFcs s
  | .verify => Sys2Proof.Machine.execVerify s

end Sys2Proof.Machine
end

