-- ==== Sys2Proof/Machine/Access.lean ====
section
/-!
DEFINITION. What one host access does: issuing a command (R150), HostWrite (R52), HostRead (R53), the reset event
(R190).
-/

namespace Sys2Proof.Machine

/-- IssueCommand(w) (R150): decode the word and run the command to its end. -/
def issueCommand (w : Word) (s : State) : Host.Outcome State Fault Refusal :=
  match decode w with
  | .legal i => exec i s
  | .illegal => execIllegal s

/-- The effect of a write on each slot (R52). -/
def writeSlot (slot : Slot) (v : Word) (s : State) : Host.Outcome State Fault Refusal :=
  match slot with
  | .cmd => issueCommand v s
  | .status => .next s
  | .gen => .next (s.setGen v)
  | .cfg => .next (s.setCfg v)
  | .data => .next (s.setData v)
  | .fcs => .next (s.setFcs v)
  | .result => .next s
  | .slot7 => .next s

/-- HostWrite(i, v) (R52). -/
def hostWrite (i : BitVec 3) (v : Word) (s : State) : Host.Outcome State Fault Refusal :=
  writeSlot (Slot.ofIndex i) v s

/-- One host access (R77): it is complete before the next begins (R54, R57). -/
def perform (a : Access) (s : State) : Host.Outcome State Fault Refusal :=
  match a with
  | .write i v => hostWrite i v s
  | .read i => .next (s.giveToHost (hostRead i s))
  | .reset => .next s.resetEvent

/-- The host's next access: the first pending one is taken from the list and made. With none pending the block
waits, and all its state persists (R181; log entry 3). -/
def nextAccess (s : State) : Host.Outcome State Fault Refusal :=
  match s.pending with
  | [] => .next s
  | a :: rest => perform a (s.setPending rest)

/-- The access by which the host issues the command word that a row of the opcode table gives: HostWrite(0, w). -/
def tableAccess (nbits w : Nat) : Access :=
  .write Slot.cmd.index (BitVec.ofNat 64 (tableBits nbits w))

end Sys2Proof.Machine
end

