-- ==== Sys2Proof/Machine/Step.lean ====
section
/-!
DEFINITION. One step of the machine: the host's next access, from its beginning to its end.
-/

namespace Sys2Proof.Machine

/-- One step: the host's next access (R54, R57). The block fetches nothing (R31), so this is its only event. -/
def step (s : State) : Host.Outcome State Fault Refusal := nextAccess s

/-- `s` with the host's write of this command word to CMD as its very next access (log entry 3). -/
def State.withFetchWord (s : State) (nbits w : Nat) : State :=
  s.setPending (tableAccess nbits w :: s.pending)

end Sys2Proof.Machine
end

