-- ==== Sys2Proof/Machine/Asm.lean ====
section
/-!
DEFINITION. Host programs: the accesses each line stands for (R77, R78), and the assembler's text. The lexical
conventions beyond R77 are the model's (log entry 9).
-/

namespace Sys2Proof.Machine

/-- WR <reg>, <value> (R77): one write of the zero-extended literal; a literal of more than 64 bits is an error. -/
def expandWrite (slot : Slot) (value : Nat) : Except AsmError (List Access) :=
  if literalWf value then .ok [.write slot.index (BitVec.ofNat 64 value)] else .error .literalTooWide

/-- SETCFG (R78): WR CFG, (total << 16) | (k << 8) | deg; each field must be in 0..127. -/
def expandSetcfg (deg k total : Nat) : Except AsmError (List Access) :=
  if fieldWf deg && fieldWf k && fieldWf total then
    expandWrite .cfg ((total <<< 16) ||| (k <<< 8) ||| deg)
  else .error .fieldOutOfRange

/-- One part of a line after another: the first error stands. -/
def andThen (a b : Except AsmError (List Access)) : Except AsmError (List Access) :=
  match a with
  | .error e => .error e
  | .ok xs =>
    match b with
    | .error e => .error e
    | .ok ys => .ok (xs ++ ys)

/-- The accesses a line stands for (R77, R78). -/
def expandLine (l : Line) : Except AsmError (List Access) :=
  match l with
  | .wr slot v => expandWrite slot v
  | .rd slot => .ok [.read slot.index]
  | .reset => .ok [.reset]
  | .command i => .ok [.write Slot.cmd.index (encode i)]
  | .setcfg deg k total => expandSetcfg deg k total
  | .frame g deg k data =>
    andThen (expandWrite .gen g) (andThen (expandSetcfg deg k 0) (expandWrite .data data))

/-- The tokens of a line, up to the `;` that starts a comment (R77): words split by white space, and commas. `word`
holds the characters of the current word, last first. -/
def tokensFrom (word : List Char) (text : List Char) : List (List Char) :=
  let done := if word.isEmpty then [] else [word.reverse]
  match text with
  | [] => done
  | c :: rest =>
    if c = ';' then done
    else if c = ',' then done ++ [','] :: tokensFrom [] rest
    else if c.isWhitespace then done ++ tokensFrom [] rest
    else tokensFrom (c :: word) rest

/-- The value of a digit in base 16, 10 or 2. -/
def digitValue (base : Nat) (c : Char) : Option Nat :=
  let v :=
    if '0' ≤ c ∧ c ≤ '9' then c.toNat - '0'.toNat
    else if 'a' ≤ c ∧ c ≤ 'f' then c.toNat - 'a'.toNat + 10
    else if 'A' ≤ c ∧ c ≤ 'F' then c.toNat - 'A'.toNat + 10
    else base
  if v < base then some v else none

/-- The value of a run of digits, most significant first, after the digits already read. -/
def digitsFrom (base acc : Nat) (cs : List Char) : Option Nat :=
  match cs with
  | [] => some acc
  | c :: rest =>
    match digitValue base c with
    | some v => digitsFrom base (acc * base + v) rest
    | none => none

/-- A non-empty run of digits; leading zeros are insignificant (R77). -/
def digits (base : Nat) (cs : List Char) : Option Nat := if cs.isEmpty then none else digitsFrom base 0 cs

/-- A literal (R77): hexadecimal 0x..., binary 0b... or decimal. -/
def literal (cs : List Char) : Option Nat :=
  match cs with
  | '0' :: 'x' :: rest => digits 16 rest
  | '0' :: 'b' :: rest => digits 2 rest
  | _ => digits 10 cs

/-- The register names of R77. -/
def registerName (cs : List Char) : Option Slot :=
  if cs = "CMD".toList then some .cmd
  else if cs = "STATUS".toList then some .status
  else if cs = "GEN".toList then some .gen
  else if cs = "CFG".toList then some .cfg
  else if cs = "DATA".toList then some .data
  else if cs = "FCS".toList then some .fcs
  else if cs = "RESULT".toList then some .result
  else if cs = "SLOT7".toList then some .slot7
  else none

/-- A line of one token: RESET or a command's pseudo-instruction (R77, R78). -/
def loneLine (cs : List Char) : Option Line :=
  if cs = "RESET".toList then some .reset
  else if cs = "NOP".toList then some (.command .nop)
  else if cs = "DIVIDE".toList then some (.command .divide)
  else if cs = "COMPUTE_FCS".toList then some (.command .computeFcs)
  else if cs = "VERIFY".toList then some (.command .verify)
  else none

/-- WR <reg>, <value>. -/
def writeLine (reg value : List Char) : Option Line :=
  match registerName reg, literal value with
  | some slot, some v => some (.wr slot v)
  | _, _ => none

/-- RD <reg>. -/
def readLine (reg : List Char) : Option Line :=
  match registerName reg with
  | some slot => some (.rd slot)
  | none => none

/-- SETCFG <deg>, <k>, <total>. -/
def setcfgLine (deg k total : List Char) : Option Line :=
  match literal deg, literal k, literal total with
  | some d, some w, some n => some (.setcfg d w n)
  | _, _, _ => none

/-- FRAME <g>, <deg>, <k>, <data>. -/
def frameLine (g deg k data : List Char) : Option Line :=
  match literal g, literal deg, literal k, literal data with
  | some p, some d, some w, some v => some (.frame p d w v)
  | _, _, _, _ => none

/-- The line that a list of tokens spells (R77, R78). -/
def lineOfTokens (tokens : List (List Char)) : Option Line :=
  match tokens with
  | [a] => loneLine a
  | [a, reg] => if a = "RD".toList then readLine reg else none
  | [a, reg, [','], v] => if a = "WR".toList then writeLine reg v else none
  | [a, d, [','], w, [','], n] => if a = "SETCFG".toList then setcfgLine d w n else none
  | [a, g, [','], d, [','], w, [','], v] => if a = "FRAME".toList then frameLine g d w v else none
  | _ => none

/-- The accesses of one line of text: none for a line that is empty or only a comment. -/
def assembleText (text : String) : Except AsmError (List Access) :=
  match tokensFrom [] text.toList with
  | [] => .ok []
  | tokens =>
    match lineOfTokens tokens with
    | some l => expandLine l
    | none => .error .badSyntax

/-- A host program (R77): straight-line, one access or pseudo-instruction a line. -/
def assemble (program : List String) : Except AsmError (List Access) :=
  match program with
  | [] => .ok []
  | line :: rest => andThen (assembleText line) (assemble rest)

end Sys2Proof.Machine
end

