-- ==== Sys2Proof/Safety.lean ====
section
/-!
DEFINITION. The terms in which claims are stated: the legal operands of each operation (R101, R134), the host's
duties (R60), the polynomial a number stands for (R13), what a fault leaves, and the machine's invariant.
-/

namespace Sys2Proof.Machine

/-- Rows 3 to 5 of R101 and R134: a generator with bit r set, no bit above it and, under EVEN_GEN = Fault, bit 0
set. -/
abbrev GeneratorPre (p : Params) (g r : Nat) : Prop :=
  g.testBit r = true ∧ g < 2 ^ (r + 1) ∧ (p.evenGen = .fault → g.testBit 0 = true)

/-- The preconditions of Divide (R101). -/
abbrev DividerPre (p : Params) (n g r : Nat) : Prop :=
  r ≤ p.W - 1 ∧ (r ≤ n ∧ n ≤ p.W) ∧ GeneratorPre p g r

/-- The preconditions of ComputeFCS and Syndrome (R134). -/
abbrev CodecPre (p : Params) (k g r : Nat) : Prop :=
  r ≤ p.W - 1 ∧ k + r ≤ p.W ∧ GeneratorPre p g r

/-- The host's duties before DIVIDE (R60, R193): the registers it reads meet R101. -/
abbrev State.DivideReady (s : State) : Prop :=
  DividerPre s.params s.total.toNat s.gen.toNat s.deg.toNat

/-- The host's duties before COMPUTE_FCS and VERIFY (R60, R193): the registers they read meet R134. -/
abbrev State.CodecReady (s : State) : Prop :=
  CodecPre s.params s.k.toNat s.gen.toNat s.deg.toNat

/-- The polynomial over GF(2) whose coefficient of x^i is bit i of `v` (R13). -/
noncomputable def Gf2.poly (v : Nat) : Polynomial (ZMod 2) :=
  ∑ i ∈ Finset.range v.size, if v.testBit i then Polynomial.X ^ i else 0

/-- `rem` is a mod_2 g for a generator of degree r (R13): r bits, and the remainder of polynomial division. -/
def Gf2.IsRemainder (a g r rem : Nat) : Prop :=
  rem < 2 ^ r ∧ Gf2.poly rem = Polynomial.modByMonic (Gf2.poly a) (Gf2.poly g)

/-- The error pattern of a frame whose data and FCS arrive with the errors `ed` and `ef` (R139). -/
def errorPattern (k r ed ef : Nat) : Nat := (maskN k ed) * 2 ^ r + maskN r ef

/-- The driver's computeFCS of one frame's data, as accesses (R61): WR DATA, COMPUTE_FCS, RD RESULT. -/
def driverComputeFcs (data : Word) : List Access := [.write 4 data, .write 0 0x2, .read 6]

/-- The driver's verify of a received frame, as accesses (R61, R196): the mutated DATA and FCS are written before
VERIFY, then STATUS is read. -/
def driverVerify (data fcs : Word) : List Access := [.write 4 data, .write 5 fcs, .write 0 0x3, .read 1]

/-- The state a fault leaves (R171). -/
def Fault.left (f : Fault) : State :=
  match f with
  | .degRange s => s
  | .lenRange s => s
  | .genTop s => s
  | .genHigh s => s
  | .genEven s => s

/-- The reason of a fault (R171). -/
def Fault.reason (f : Fault) : FaultReason :=
  match f with
  | .degRange _ => .degRange
  | .lenRange _ => .lenRange
  | .genTop _ => .genTop
  | .genHigh _ => .genHigh
  | .genEven _ => .genEven

/-- A state that may end an observation (R34): no fault is recorded. -/
abbrev State.Observable (s : State) : Prop := s.fault = none

/-- What every reachable state satisfies: before the first completed operation RESULT, ZERO and the divider are 0;
after one, ZERO says whether RESULT is 0 (R26), the divider stands where its last division ended (R105, R106), and
op and cur keep the bounds of R29. -/
abbrev State.Inv (s : State) : Prop :=
  s.op = s.result ∧ s.op.toNat < 2 ^ (s.params.W - 1) ∧ s.cur.toNat ≤ s.params.W ∧
    (s.done = false → s.result = 0 ∧ s.zero = false ∧ s.cur = 0) ∧
    (s.done = true → s.zero = decide (s.result = 0))

end Sys2Proof.Machine
end

