-- ==== Sys2Proof/Certificates/Slice0/Obligations.lean ====
section
/-!
DEFINITION. The statements for the provers. Each docstring names the rule or the sentence of the spec it formalises.
-/

open Sys2Proof Sys2Proof.Machine

/-- The four command words of R72 and illegal neighbours of each kind named by R73 and R155, as written words. -/
def Obligations.SampleCommandWordsDecode : Prop :=
  decode 0x0000000000000000 = .legal .nop ∧ decode 0x0000000000000001 = .legal .divide ∧
    decode 0x0000000000000002 = .legal .computeFcs ∧ decode 0x0000000000000003 = .legal .verify ∧
    decode 0x0000000000000004 = .illegal ∧ decode 0x000000000000000F = .illegal ∧
    decode 0x0000000000000010 = .illegal ∧ decode 0x8000000000000003 = .illegal

/-- R71, R72: the decoder on EVERY 64-bit word. Each command is exactly one word, and all other words are Illegal. -/
def Obligations.EveryWordDecodesAsTheOpcodeMap : Prop :=
  ∀ w : Word,
    (decode w = .legal .nop ↔ w.toNat = 0) ∧ (decode w = .legal .divide ↔ w.toNat = 1) ∧
      (decode w = .legal .computeFcs ↔ w.toNat = 2) ∧ (decode w = .legal .verify ↔ w.toNat = 3) ∧
      (decode w = .illegal ↔ 3 < w.toNat)

/-- Decode and encode agree (R70 to R73): the words the decoder accepts are exactly the encodings, each of its own
command, and they are exactly the well-formed words. -/
def Obligations.DecoderAcceptsExactlyTheEncodings : Prop :=
  ∀ (w : Word) (i : Instr),
    (decode w = .legal i ↔ encode i = w) ∧ (commandWordWf w = true ↔ ∃ j, j.wf = true ∧ decode w = .legal j)

/-- R50, R77: the index of each slot names that slot, and each of the 8 indices is the index of the slot it names. -/
def Obligations.SlotIndicesNameTheSlots : Prop :=
  (Slot.cmd.index = 0 ∧ Slot.status.index = 1 ∧ Slot.gen.index = 2 ∧ Slot.cfg.index = 3 ∧
      Slot.data.index = 4 ∧ Slot.fcs.index = 5 ∧ Slot.result.index = 6 ∧ Slot.slot7.index = 7) ∧
    (∀ i : BitVec 3, (Slot.ofIndex i).index = i) ∧ (∀ x : Slot, Slot.ofIndex x.index = x)

/-- R151, NOP: its word is 0, and it answers the state with ILL cleared and all else as before. -/
def Obligations.NopClearsIllAlone : Prop :=
  encode .nop = 0x0 ∧ ∀ s : State, exec .nop s = .next { s with ill := false }

/-- R152, DIVIDE. Where the registers meet R101 the command completes: RESULT, DONE, ZERO and ILL are written from the
remainder of Divide(DATA, TOTAL, GEN, DEG), and nothing else but the divider's internal op and cur, of which this
statement says nothing (R29). Then the rule's corner cases. Where the registers do not meet R101 it faults for the
first failing row (spelled out in `OperationsFaultOnTheFirstFailingRow`). -/
def Obligations.DivideWritesRemainderAndFlags : Prop :=
  encode .divide = 0x1 ∧
    ∀ s : State,
      (s.DivideReady → ∃ (d : Division) (o : Word) (c : Field),
        divide s.params s.data.toNat s.total.toNat s.gen.toNat s.deg.toNat = .ok d ∧
          exec .divide s = .next
            { s with
              result := BitVec.ofNat 64 d.rem, done := true, zero := decide (d.rem = 0), ill := false
              op := o, cur := c } ∧
          (s.deg = 0 → d.rem = 0) ∧
          (s.total = s.deg → d.rem = s.data.toNat % 2 ^ s.total.toNat) ∧
          divide s.params (s.data.toNat % 2 ^ s.total.toNat) s.total.toNat s.gen.toNat s.deg.toNat = .ok d ∧
          (s.total = 0 → s.deg = 0 ∧ d.rem = 0)) ∧
      (¬ s.DivideReady → ∃ (why : FaultReason) (f : Fault),
        checkDivider s.params s.total.toNat s.gen.toNat s.deg.toNat = some why ∧
          exec .divide s = .fault f ∧ f.reason = why)

/-- R153, COMPUTE_FCS: as DIVIDE, from ComputeFCS(DATA, K, GEN, DEG) (R130) and the check of R134, with the rule's
corner cases. The FCS register is not written. -/
def Obligations.ComputeFcsWritesFcsAndFlags : Prop :=
  encode .computeFcs = 0x2 ∧
    ∀ s : State,
      (s.CodecReady → ∃ (d : Division) (o : Word) (c : Field),
        computeFcs s.params s.data.toNat s.k.toNat s.gen.toNat s.deg.toNat = .ok d ∧
          exec .computeFcs s = .next
            { s with
              result := BitVec.ofNat 64 d.rem, done := true, zero := decide (d.rem = 0), ill := false
              op := o, cur := c } ∧
          (s.deg = 0 → d.rem = 0) ∧ (s.k = 0 → d.rem = 0) ∧
          computeFcs s.params (s.data.toNat % 2 ^ s.k.toNat) s.k.toNat s.gen.toNat s.deg.toNat = .ok d) ∧
      (¬ s.CodecReady → ∃ (why : FaultReason) (f : Fault),
        checkCodec s.params s.k.toNat s.gen.toNat s.deg.toNat = some why ∧
          exec .computeFcs s = .fault f ∧ f.reason = why)

/-- R154, VERIFY: RESULT is the syndrome (R132), ZERO is Verify's boolean (R131), and the rule's corner cases, its
identity of the syndrome with ComputeFCS(data) ⊕ mask_r(fcs) among them. -/
def Obligations.VerifyWritesSyndromeAndFlags : Prop :=
  encode .verify = 0x3 ∧
    ∀ s : State,
      (s.CodecReady → ∃ (d e : Division) (o : Word) (c : Field),
        syndrome s.params s.data.toNat s.k.toNat s.gen.toNat s.deg.toNat s.fcs.toNat = .ok d ∧
          verify s.params s.data.toNat s.k.toNat s.gen.toNat s.deg.toNat s.fcs.toNat = .ok (decide (d.rem = 0)) ∧
          exec .verify s = .next
            { s with
              result := BitVec.ofNat 64 d.rem, done := true, zero := decide (d.rem = 0), ill := false
              op := o, cur := c } ∧
          syndrome s.params s.data.toNat s.k.toNat s.gen.toNat s.deg.toNat (s.fcs.toNat % 2 ^ s.deg.toNat) = .ok d ∧
          (s.deg = 0 → d.rem = 0) ∧
          (s.k = 0 → (d.rem = 0 ↔ s.fcs.toNat % 2 ^ s.deg.toNat = 0)) ∧
          computeFcs s.params s.data.toNat s.k.toNat s.gen.toNat s.deg.toNat = .ok e ∧
          d.rem = e.rem ^^^ (s.fcs.toNat % 2 ^ s.deg.toNat)) ∧
      (¬ s.CodecReady → ∃ (why : FaultReason) (f : Fault),
        checkCodec s.params s.k.toNat s.gen.toNat s.deg.toNat = some why ∧
          exec .verify s = .fault f ∧ f.reason = why)

/-- R171: the table of model faults. Each operation whose check fails faults for the first failing row, records the
command word and the operands that row names, and writes no register; and the codes of the reasons. Two things in these
equations are the model's choice and no rule of the spec: that the fault carries the state the step leaves (log entry
5), and that from a state which already holds a record the new record stands in its place (log entry 6). -/
def Obligations.OperationsFaultOnTheFirstFailingRow : Prop :=
  (∀ s : State, ¬ s.DivideReady → exec .divide s = .fault
    (if ¬ s.deg.toNat ≤ s.params.W - 1 then .degRange { s with fault := some (.degRange 0x1 s.deg) }
      else if s.total.toNat < s.deg.toNat ∨ s.params.W < s.total.toNat then
        .lenRange { s with fault := some (.lenRangeDivide 0x1 s.deg s.total) }
      else if s.gen.toNat.testBit s.deg.toNat = false then
        .genTop { s with fault := some (.genTop 0x1 s.deg s.gen) }
      else if 2 ^ (s.deg.toNat + 1) ≤ s.gen.toNat then
        .genHigh { s with fault := some (.genHigh 0x1 s.deg s.gen) }
      else .genEven { s with fault := some (.genEven 0x1 s.gen) })) ∧
  (∀ (s : State) (i : Instr) (w : Word), (i = .computeFcs ∧ w = 0x2) ∨ (i = .verify ∧ w = 0x3) →
    ¬ s.CodecReady → exec i s = .fault
    (if ¬ s.deg.toNat ≤ s.params.W - 1 then .degRange { s with fault := some (.degRange w s.deg) }
      else if s.params.W < s.k.toNat + s.deg.toNat then
        .lenRange { s with fault := some (.lenRangeCodec w s.deg s.k) }
      else if s.gen.toNat.testBit s.deg.toNat = false then
        .genTop { s with fault := some (.genTop w s.deg s.gen) }
      else if 2 ^ (s.deg.toNat + 1) ≤ s.gen.toNat then
        .genHigh { s with fault := some (.genHigh w s.deg s.gen) }
      else .genEven { s with fault := some (.genEven w s.gen) })) ∧
  (FaultReason.degRange.code = 1 ∧ FaultReason.lenRange.code = 2 ∧ FaultReason.genTop.code = 3 ∧
    FaultReason.genHigh.code = 4 ∧ FaultReason.genEven.code = 5)

/-- R73, R155: a write to CMD of any word but the four of R72 sets ILL, changes nothing else and never faults. -/
def Obligations.IllegalWordSetsIllAlone : Prop :=
  ∀ (s : State) (w : Word), 3 < w.toNat → hostWrite 0 w s = .next { s with ill := true }

/-- R52, HostWrite at each index: a command at slot 0, storage at slots 2 to 5 (CFG by its fields), no effect at
slots 1, 6 and 7; nothing but the slot written changes. -/
def Obligations.HostWriteChangesItsSlotAlone : Prop :=
  ∀ (s : State) (v : Word),
    (∀ i : Instr, decode v = .legal i → hostWrite 0 v s = exec i s) ∧
    (decode v = .illegal → hostWrite 0 v s = execIllegal s) ∧
    hostWrite 1 v s = .next s ∧
    hostWrite 2 v s = .next { s with gen := v } ∧
    hostWrite 3 v s = .next
      { s with
        deg := BitVec.ofNat 7 v.toNat, k := BitVec.ofNat 7 (v.toNat / 2 ^ 8)
        total := BitVec.ofNat 7 (v.toNat / 2 ^ 16) } ∧
    hostWrite 4 v s = .next { s with data := v } ∧
    hostWrite 5 v s = .next { s with fcs := v } ∧
    hostWrite 6 v s = .next s ∧
    hostWrite 7 v s = .next s

/-- R53, HostRead at each index; and what a read access does at every index: it hands exactly that value to the host and
changes no state of the block. That the host's values stand in a list of the state, the new one last, is the model's
choice and no rule of the spec (log entry 4). -/
def Obligations.HostReadReturnsTheSlot : Prop :=
  ∀ s : State,
    hostRead 0 s = 0 ∧
    (hostRead 1 s).toNat = s.ill.toNat * 4 + s.zero.toNat * 2 + s.done.toNat ∧
    hostRead 2 s = s.gen ∧
    (hostRead 3 s).toNat = s.total.toNat * 2 ^ 16 + s.k.toNat * 2 ^ 8 + s.deg.toNat ∧
    hostRead 4 s = s.data ∧ hostRead 5 s = s.fcs ∧ hostRead 6 s = s.result ∧ hostRead 7 s = 0 ∧
    ∀ i : BitVec 3, perform (.read i) s = .next { s with returned := s.returned ++ [hostRead i s] }

/-- R57 with R21 to R24: a read after a write returns the value written; CFG's reserved bits read 0 (R22). -/
def Obligations.ReadReturnsTheLastWrite : Prop :=
  ∀ (s : State) (v : Word), ∃ a b c d : State,
    hostWrite 2 v s = .next a ∧ hostRead 2 a = v ∧
    hostWrite 3 v s = .next b ∧ hostRead 3 b = v &&& 0x7F7F7F ∧
    hostWrite 4 v s = .next c ∧ hostRead 4 c = v ∧
    hostWrite 5 v s = .next d ∧ hostRead 5 d = v

/-- R190: the reset event, in every state. Registers and divider as at power-on; the fault record, the parameters and
the host's side as before. -/
def Obligations.ResetEventClearsRegisters : Prop :=
  ∀ s : State, perform .reset s = .next
    { State.reset with
      fault := s.fault, params := s.params, pending := s.pending, returned := s.returned }

/-- R192: every stored field is 0 in the reset state. -/
def Obligations.ResetStateIsZero : Prop :=
  State.reset.gen = 0 ∧ State.reset.deg = 0 ∧ State.reset.k = 0 ∧ State.reset.total = 0 ∧
    State.reset.data = 0 ∧ State.reset.fcs = 0 ∧ State.reset.result = 0 ∧
    State.reset.done = false ∧ State.reset.zero = false ∧ State.reset.ill = false ∧
    State.reset.op = 0 ∧ State.reset.cur = 0

/-- The spec's derived sentence 'an operation command issued straight after reset faults GEN_TOP' (70_reset_and_hazards.md
section 2), for every implementation's parameters, with the items the fault records (60_exceptions.md section 2). That
the fault carries the state left is the model's choice (log entry 5); so is that, where a record made before the reset
still stands, the new record takes its place (log entry 6). -/
def Obligations.OperationStraightAfterResetFaultsGenTop : Prop :=
  ∀ (s : State) (i : Instr), i ≠ .nop →
    exec i s.resetEvent = .fault
      (.genTop { s.resetEvent with fault := some (.genTop (encode i) 0 0) })

/-- A step makes the host's next access (R54, R57, R150). A write to CMD of a word that decodes to a command runs
exactly that command; so does the word that `withFetchWord` places. With no access pending the state persists (R181).
That accesses come from the state's list is the model's convention (log entry 3). -/
def Obligations.StepRunsTheNextAccess : Prop :=
  (∀ (s : State) (w : Word) (i : Instr) (rest : List Access),
    s.pending = .write 0 w :: rest → decode w = .legal i → step s = exec i { s with pending := rest }) ∧
  (∀ (s : State) (a : Access) (rest : List Access),
    s.pending = a :: rest → step s = perform a { s with pending := rest }) ∧
  (∀ s : State, s.pending = [] → step s = .next s) ∧
  (∀ (s : State) (w : Word) (i : Instr), decode w = .legal i → step (s.withFetchWord 64 w.toNat) = exec i s)

/-- The machine's invariant is kept by every step that answers a next state (R26, R29, R105, R106, R156). That op and
cur stand where the last division ended is the model's reading (log entry 8). -/
def Obligations.StepKeepsTheInvariant : Prop :=
  ∀ s t : State, s.Inv → step s = .next t → t.Inv

/-- The reset state satisfies the invariant (R191, R192). -/
def Obligations.ResetSatisfiesTheInvariant : Prop := State.reset.Inv

/-- R34 and R171, over a step from any state: a step that goes on keeps the fault record, and the parameters W and
EVEN_GEN, which are fixed for an implementation (00_scope.md section 4); a step that faults writes the record and nothing
else of the block. The model's choices here: the parameters are a field of the state (log entry 1), the access made is
taken from the pending list (log entry 3), the fault carries the state left (log entry 5), and a second fault writes its
record over an earlier one (log entry 6). -/
def Obligations.FaultRecordIsSetByFaultsAlone : Prop :=
  (∀ s t : State, step s = .next t → t.fault = s.fault ∧ t.params = s.params) ∧
  (∀ (s : State) (f : Fault), step s = .fault f → ∃ record : FaultRecord,
    record.reason = f.reason ∧ f.left = { s with pending := s.pending.tail, fault := some record })

/-- R172's sentence 'NOP and illegal words never fault', over all accesses: a step that faults made a write to CMD of
one of the words 1, 2 and 3; and no step is refused. That accesses come from a list of the state is the model's choice
(log entry 3). -/
def Obligations.OnlyOperationCommandsFault : Prop :=
  (∀ (s : State) (f : Fault), step s = .fault f → ∃ (w : Word) (rest : List Access),
    s.pending = .write 0 w :: rest ∧ 1 ≤ w.toNat ∧ w.toNat ≤ 3) ∧
  (∀ (s : State) (r : Refusal), step s ≠ .refused r)

/-- R156's sentence 'No operation command writes GEN, CFG, DATA or FCS', for every command: what a command leaves
unchanged when it completes; NOP also leaves RESULT, DONE and ZERO (R151). -/
def Obligations.CommandsLeaveTheOperandRegisters : Prop :=
  ∀ (i : Instr) (s t : State), exec i s = .next t →
    t.gen = s.gen ∧ t.deg = s.deg ∧ t.k = s.k ∧ t.total = s.total ∧ t.data = s.data ∧ t.fcs = s.fcs ∧
      t.fault = s.fault ∧ t.params = s.params ∧ t.pending = s.pending ∧ t.returned = s.returned ∧ t.ill = false ∧
      (i = .nop → t.result = s.result ∧ t.done = s.done ∧ t.zero = s.zero ∧ t.op = s.op ∧ t.cur = s.cur) ∧
      (i ≠ .nop → t.done = true)

/-- R26's sentence 'It is never cleared except by reset', of DONE; and RESULT changes only by an operation command or
a reset (R25). That accesses come from a list of the state is the model's choice (log entry 3). -/
def Obligations.DoneAndResultPersist : Prop :=
  ∀ s t : State, step s = .next t → s.pending.head? ≠ some .reset →
    (s.done = true → t.done = true) ∧
      ((∀ w : Word, s.pending.head? = some (.write 0 w) → w.toNat = 0 ∨ 3 < w.toNat) →
        t.result = s.result ∧ t.done = s.done ∧ t.zero = s.zero)

/-- R75's column 'other', with the masks of R23 and R24: what an operation writes is a function of its operands alone.
DIVIDE ignores K, FCS and the bits of DATA at or above TOTAL; COMPUTE_FCS ignores TOTAL, FCS and the bits of DATA at
or above K; VERIFY ignores TOTAL and the bits of DATA and FCS at or above K and DEG. No command reads RESULT or STATUS
(R156). -/
def Obligations.ResultDependsOnTheOperandsAlone : Prop :=
  ∀ s s' t : State, s'.params = s.params → s'.gen = s.gen → s'.deg = s.deg →
    (s'.total = s.total → s'.data.toNat % 2 ^ s.total.toNat = s.data.toNat % 2 ^ s.total.toNat →
      exec .divide s = .next t → ∃ t', exec .divide s' = .next t' ∧ t'.result = t.result ∧ t'.zero = t.zero) ∧
    (s'.k = s.k → s'.data.toNat % 2 ^ s.k.toNat = s.data.toNat % 2 ^ s.k.toNat →
      (exec .computeFcs s = .next t →
        ∃ t', exec .computeFcs s' = .next t' ∧ t'.result = t.result ∧ t'.zero = t.zero) ∧
      (s'.fcs.toNat % 2 ^ s.deg.toNat = s.fcs.toNat % 2 ^ s.deg.toNat → exec .verify s = .next t →
        ∃ t', exec .verify s' = .next t' ∧ t'.result = t.result ∧ t'.zero = t.zero))

/-- R58: a read of RESULT issued after an operation command returns that command's result, with nothing between. That
accesses come from, and the host's values go to, lists of the state is the model's choice (log entries 3 and 4). -/
def Obligations.ResultReadAfterCommandIsItsResult : Prop :=
  ∀ (s t : State) (w : Word) (i : Instr) (rest : List Access),
    s.pending = .write 0 w :: .read 6 :: rest → decode w = .legal i → exec i s = .next t →
      ∃ u : State, Host.Core.run core 2 s = .next u ∧ u.returned = s.returned ++ [t.result] ∧ u.pending = rest

/-- R61 and R196: the driver's sequences. After WR DATA and COMPUTE_FCS a read of RESULT returns ComputeFCS of that
data; after the mutated DATA and FCS are written and VERIFY is issued, a read of STATUS returns 0x3 when Verify is true
of the mutated frame and 0x1 when it is not (R156). That the accesses come from `State.pending` and that a read's value
is appended to `State.returned` is the model's choice and no rule of the spec (log entries 3 and 4). -/
def Obligations.DriverSequencesReadTheOutcome : Prop :=
  ∀ (s : State) (data fcs : Word) (rest : List Access), s.CodecReady →
    (s.pending = driverComputeFcs data ++ rest → ∃ (d : Division) (t : State),
      computeFcs s.params data.toNat s.k.toNat s.gen.toNat s.deg.toNat = .ok d ∧
        Host.Core.run core 3 s = .next t ∧ t.returned = s.returned ++ [BitVec.ofNat 64 d.rem] ∧ t.pending = rest) ∧
    (s.pending = driverVerify data fcs ++ rest → ∃ (accepted : Bool) (t : State),
      verify s.params data.toNat s.k.toNat s.gen.toNat s.deg.toNat fcs.toNat = .ok accepted ∧
        Host.Core.run core 4 s = .next t ∧ t.returned = s.returned ++ [if accepted then 0x3 else 0x1] ∧
        t.pending = rest)

/-- Along every run that goes on, of any length, from any state that records no fault (R34) and satisfies the
invariant: no fault is recorded, the invariant holds, and the parameters W and EVEN_GEN stay (R6, R7). The invariant's
clauses on op and cur between commands (op = RESULT, and the bounds) rest on the model's reading that both keep their
last values (log entry 8); that the parameters are a field of the state is its choice (log entry 1). -/
def Obligations.RunsStayObservable : Prop :=
  ∀ (steps : Nat) (s t : State), s.Observable → s.Inv → Host.Core.run core steps s = .next t →
    t.Observable ∧ t.Inv ∧ t.params = s.params

/-- Second clause, R105: a micro-step answers Done exactly where op[r] = 0 and cur = n. First clause, the derived law of
40_divider.md section 3 'Step counts' that a legal division ends: under R101 the model's run, whose number of micro-steps
is taken from that law (log entry 13, DEDUCED), stands at such a state. -/
def Obligations.DivisionEndsWithTopBitClear : Prop :=
  (∀ (p : Params) (s n g r : Nat), DividerPre p n g r →
    (dividerEnd p.W n s g r).op.testBit r = false ∧ (dividerEnd p.W n s g r).cur = n ∧
      dividerStep p.W n (maskN n s) g r (dividerEnd p.W n s g r) = .finished (dividerEnd p.W n s g r).op) ∧
  (∀ (W s n g r : Nat) (d : Divider), d.cur ≤ n →
    ((∃ op, dividerStep W n s g r d = .finished op) ↔ d.op.testBit r = false ∧ d.cur = n))

/-- R106 with its derived sentence 'the masking removes no set bit': the remainder is op at the end, and is below
2^r. -/
def Obligations.RemainderIsTheFinalRegister : Prop :=
  ∀ (p : Params) (s n g r : Nat), DividerPre p n g r → ∃ d : Division,
    divide p s n g r = .ok d ∧ d.rem = d.last.op ∧ d.rem < 2 ^ r ∧ d.last.cur = n

/-- The derived law of 40_divider.md section 3 'Invariants': after the initialization and after every micro-step,
op < 2^(r+1), and op ⊕ P(cur) is a multiple of g, for P(c) the value of the first c stream bits. -/
def Obligations.MicroStepsKeepTheCongruence : Prop :=
  ∀ (p : Params) (s n g r steps : Nat), DividerPre p n g r →
    (dividerRun p.W n (maskN n s) g r steps (dividerInit n (maskN n s) r)).op < 2 ^ (r + 1) ∧
      (dividerRun p.W n (maskN n s) g r steps (dividerInit n (maskN n s) r)).cur ≤ n ∧
      Gf2.poly g ∣ Gf2.poly
        ((dividerRun p.W n (maskN n s) g r steps (dividerInit n (maskN n s) r)).op ^^^
          (maskN n s) / 2 ^ (n - (dividerRun p.W n (maskN n s) g r steps (dividerInit n (maskN n s) r)).cur))

/-- The derived law of 40_divider.md section 3 'Algebraic meaning': Divide(s, n, g, r) is the remainder of polynomial
division of mask_n(s) by g over GF(2). -/
def Obligations.DivideIsPolynomialRemainder : Prop :=
  ∀ (p : Params) (s n g r : Nat), DividerPre p n g r → ∃ d : Division,
    divide p s n g r = .ok d ∧ Gf2.IsRemainder (s % 2 ^ n) g r d.rem

/-- The derived law of 40_divider.md section 3 'Step counts': 2(n - w) + 1 micro-steps end every division, more change
nothing, and a reduction always clears op[r], so two are never consecutive. The model takes its number of micro-steps
from this law (log entry 13). -/
def Obligations.DivisionEndsWithinTheStepBound : Prop :=
  ∀ (p : Params) (s n g r : Nat), DividerPre p n g r →
    (∀ more : Nat,
      dividerRun p.W n (maskN n s) g r (2 * (n - min n (r + 1)) + 1 + more) (dividerInit n (maskN n s) r) =
        dividerEnd p.W n s g r) ∧
    (∀ d d' : Divider, d.op.testBit r = true → dividerStep p.W n (maskN n s) g r d = .step d' →
      d'.op.testBit r = false ∧ d'.cur = d.cur)

/-- The derived law of 40_divider.md section 3 'Split execution': two phases, the second from the first's op and cur,
reach the state the single pass reaches; the split is defined for r+1 ≤ c ≤ n only. -/
def Obligations.SplitDivisionEqualsSinglePass : Prop :=
  ∀ (p : Params) (s n g r c : Nat), DividerPre p n g r →
    (r + 1 ≤ c → c ≤ n → dividerSplit p.W n s g r c = some (dividerEnd p.W n s g r)) ∧
      (¬ (r + 1 ≤ c ∧ c ≤ n) → dividerSplit p.W n s g r c = none)

/-- The derived sentence of 40_divider.md section 3 on a generator with g[r] = 0, run without the check: it never ends
when mask_n(s) is at least 2^r, and otherwise ends with mask_n(s). This is why GEN_TOP stands for a hang too. -/
def Obligations.UncheckedGeneratorWithoutTopBitHangs : Prop :=
  ∀ (p : Params) (s n g r : Nat), r ≤ p.W - 1 → r ≤ n → n ≤ p.W → g.testBit r = false →
    (2 ^ r ≤ s % 2 ^ n → ∀ (steps op : Nat),
      dividerStep p.W n (maskN n s) g r
        (dividerRun p.W n (maskN n s) g r steps (dividerInit n (maskN n s) r)) ≠ .finished op) ∧
    (s % 2 ^ n < 2 ^ r → dividerEnd p.W n s g r = { op := s % 2 ^ n, cur := n } ∧
      dividerStep p.W n (maskN n s) g r (dividerEnd p.W n s g r) = .finished (s % 2 ^ n))

/-- The derived law of 40_divider.md section 3 'Corner cases'. -/
def Obligations.DividerCornerCases : Prop :=
  ∀ (p : Params) (s n g r : Nat), DividerPre p n g r → ∃ d : Division, divide p s n g r = .ok d ∧
    (r = 0 → d.rem = 0) ∧
    (n = r → d.rem = s % 2 ^ n) ∧
    (n = r + 1 → d.rem = if (s % 2 ^ n).testBit r then (s % 2 ^ n) ^^^ g else s % 2 ^ n) ∧
    (s % 2 ^ n < 2 ^ r → d.rem = s % 2 ^ n) ∧
    (s % 2 ^ n = g → n = r + 1 → d.rem = 0)

/-- The derived law of 40_divider.md section 3 'Linearity'. -/
def Obligations.DivideIsLinear : Prop :=
  ∀ (p : Params) (a b n g r : Nat), DividerPre p n g r → ∃ x y z : Division,
    divide p a n g r = .ok x ∧ divide p b n g r = .ok y ∧ divide p (a ^^^ b) n g r = .ok z ∧
      z.rem = x.rem ^^^ y.rem

/-- COMPUTE_FCS on the machine, in polynomials: RESULT is the remainder of data · x^r (R130 with the derived law
'Algebraic meaning'). -/
def Obligations.ComputeFcsIsRemainderOfShiftedData : Prop :=
  ∀ s : State, s.CodecReady → ∃ t : State, exec .computeFcs s = .next t ∧
    Gf2.IsRemainder (s.data.toNat % 2 ^ s.k.toNat * 2 ^ s.deg.toNat) s.gen.toNat s.deg.toNat t.result.toNat ∧
    (t.zero = true ↔ t.result = 0)

/-- VERIFY on the machine, in polynomials (GLOSSARY 'Remainder-zero acceptance'): the frame is accepted exactly when
the polynomial of data ‖ fcs is a multiple of the generator's. -/
def Obligations.VerifyAcceptsExactlyTheMultiples : Prop :=
  ∀ s : State, s.CodecReady → ∃ t : State, exec .verify s = .next t ∧
    (t.zero = true ↔ Gf2.poly s.gen.toNat ∣
      Gf2.poly (s.data.toNat % 2 ^ s.k.toNat * 2 ^ s.deg.toNat + s.fcs.toNat % 2 ^ s.deg.toNat))

/-- The derived law of 41_codec.md section 3 'Round trip', on the machine: COMPUTE_FCS, then the host copies RESULT to
FCS, then VERIFY accepts with syndrome 0. -/
def Obligations.FreshFcsVerifies : Prop :=
  ∀ s : State, s.CodecReady → ∃ t u v : State,
    exec .computeFcs s = .next t ∧ hostWrite 5 (hostRead 6 t) t = .next u ∧ exec .verify u = .next v ∧
      v.zero = true ∧ v.result = 0

/-- The derived law of 41_codec.md section 3 'Syndrome identity', and when Verify is true. -/
def Obligations.SyndromeIsFcsDifference : Prop :=
  ∀ (p : Params) (data k g r fcs : Nat), CodecPre p k g r → ∃ c x : Division,
    computeFcs p data k g r = .ok c ∧ syndrome p data k g r fcs = .ok x ∧ x.rem = c.rem ^^^ (fcs % 2 ^ r) ∧
      verify p data k g r fcs = .ok (decide (fcs % 2 ^ r = c.rem))

/-- The derived law of 41_codec.md section 3 'Error detection': a received frame is accepted exactly when the error
pattern is a multiple of the generator. -/
def Obligations.ErrorUndetectedExactlyWhenMultiple : Prop :=
  ∀ (p : Params) (data k g r ed ef : Nat), CodecPre p k g r → ∃ (c e : Division) (accepted : Bool),
    computeFcs p data k g r = .ok c ∧ divide p (errorPattern k r ed ef) (k + r) g r = .ok e ∧
      verify p (data ^^^ ed) k g r (c.rem ^^^ ef) = .ok accepted ∧
      (accepted = true ↔ e.rem = 0) ∧
      (accepted = true ↔ Gf2.poly g ∣ Gf2.poly (errorPattern k r ed ef))

/-- The derived law of 41_codec.md section 3 'Single-bit errors': with r ≥ 1 and g[0] = 1, a frame with any one of its
k + r bits flipped is rejected. -/
def Obligations.SingleBitErrorIsDetected : Prop :=
  ∀ (p : Params) (data k g r i : Nat), CodecPre p k g r → 1 ≤ r → g.testBit 0 = true → i < k + r →
    ∃ c : Division, computeFcs p data k g r = .ok c ∧
      verify p (if i < r then data else data ^^^ 2 ^ (i - r)) k g r (if i < r then c.rem ^^^ 2 ^ i else c.rem) =
        .ok false

/-- The derived law of 41_codec.md section 3 'Degenerate operands'. -/
def Obligations.CodecDegenerateOperands : Prop :=
  ∀ (p : Params) (data k g r fcs : Nat), CodecPre p k g r → ∃ c x : Division,
    computeFcs p data k g r = .ok c ∧ syndrome p data k g r fcs = .ok x ∧
      (r = 0 → c.rem = 0 ∧ x.rem = 0) ∧
      (k = 0 → c.rem = 0 ∧ x.rem = fcs % 2 ^ r) ∧
      computeFcs p (data % 2 ^ k) k g r = .ok c ∧
      syndrome p (data % 2 ^ k) k g r (fcs % 2 ^ r) = .ok x

/-- The derived law of 41_codec.md section 3 'Even generators': under EVEN_GEN = Compute such a command completes, and
bit 0 of the FCS is 0 when r ≥ 1. -/
def Obligations.EvenGeneratorGivesEvenFcs : Prop :=
  ∀ s : State, s.params.evenGen = .compute → s.deg.toNat ≤ s.params.W - 1 →
    s.k.toNat + s.deg.toNat ≤ s.params.W → s.gen.toNat.testBit s.deg.toNat = true →
    s.gen.toNat < 2 ^ (s.deg.toNat + 1) → s.gen.toNat.testBit 0 = false →
      ∃ t : State, exec .computeFcs s = .next t ∧ (1 ≤ s.deg.toNat → t.result.toNat.testBit 0 = false)

/-- R25's derived sentence 'bits RESULT[63:r] are 0 after every such command'. -/
def Obligations.ResultFitsTheDegree : Prop :=
  ∀ (i : Instr) (s t : State), i ≠ .nop → exec i s = .next t → t.result.toNat < 2 ^ s.deg.toNat

/-- The derived hazard of 70_reset_and_hazards.md section 3: in the frame of 95_test_vectors.md V1 the first phase ends
at op = 0b0100 with cur = 8; going on from there gives 0b111, and going on from op = 0 gives 0b000. -/
def Obligations.SplitFromClearedRegisterIsWrong : Prop :=
  dividerEnd 64 8 0b11010110 0b1011 3 = { op := 0b0100, cur := 8 } ∧
    (dividerRun 64 11 0b11010110000 0b1011 3 15 { op := 0b0100, cur := 8 }).op = 0b111 ∧
    (dividerRun 64 11 0b11010110000 0b1011 3 15 { op := 0, cur := 8 }).op = 0b000

/-- R77 and R78: a line assembles exactly when its literals fit 64 bits and its fields are in 0..127; and the accesses
each kind of line stands for: WR, RD and RESET (R77), the four commands with their words, SETCFG, and FRAME as WR GEN,
SETCFG with TOTAL = 0 and WR DATA (R78). That the DEG and K of FRAME have SETCFG's bound is read from that expansion
(log entry 9). -/
def Obligations.LineAssemblesExactlyWhenWellFormed : Prop :=
  (∀ l : Line, (∃ accesses, expandLine l = .ok accesses) ↔ l.wf = true) ∧
  (∀ (x : Slot) (v : Nat), v < 2 ^ 64 → expandLine (.wr x v) = .ok [.write x.index (BitVec.ofNat 64 v)]) ∧
  (∀ x : Slot, expandLine (.rd x) = .ok [.read x.index]) ∧
  expandLine .reset = .ok [.reset] ∧
  expandLine (.command .nop) = .ok [.write 0 0x0] ∧
  expandLine (.command .divide) = .ok [.write 0 0x1] ∧
  expandLine (.command .computeFcs) = .ok [.write 0 0x2] ∧
  expandLine (.command .verify) = .ok [.write 0 0x3] ∧
  (∀ deg k total : Nat, deg ≤ 127 → k ≤ 127 → total ≤ 127 →
    expandLine (.setcfg deg k total) =
      .ok [.write 3 (BitVec.ofNat 64 (total * 2 ^ 16 + k * 2 ^ 8 + deg))]) ∧
  (∀ g deg k data : Nat, g < 2 ^ 64 → deg ≤ 127 → k ≤ 127 → data < 2 ^ 64 →
    expandLine (.frame g deg k data) =
      .ok [.write 2 (BitVec.ofNat 64 g), .write 3 (BitVec.ofNat 64 (k * 2 ^ 8 + deg)),
        .write 4 (BitVec.ofNat 64 data)])

/-- R77's and R78's written forms, on sample lines of text: each register name with its index, a literal in each base
with leading zeros, the comment, RESET, each pseudo-instruction, and the two assembly errors. The spacing of the samples
is that of the spec's own programs; which other spacings are read is the model's choice (log entry 9). -/
def Obligations.SampleProgramTextAssembles : Prop :=
  (assemble ["RD CMD", "RD STATUS", "RD GEN", "RD CFG", "RD DATA", "RD FCS", "RD RESULT", "RD SLOT7"] =
      .ok [.read 0, .read 1, .read 2, .read 3, .read 4, .read 5, .read 6, .read 7]) ∧
  (assemble ["WR CMD, 0x04", "WR STATUS, 7", "WR GEN, 0b1011", "WR CFG, 0x803", "WR DATA, 0xD6", "WR FCS, 0007",
        "WR RESULT, 0x55", "WR SLOT7, 0x5"] =
      .ok [.write 0 0x4, .write 1 0x7, .write 2 0xB, .write 3 0x803, .write 4 0xD6, .write 5 0x7, .write 6 0x55,
        .write 7 0x5]) ∧
  (assemble ["RESET                       ; (reset)  every register 0", "NOP", "DIVIDE", "COMPUTE_FCS",
        "VERIFY                      ; (write, 0, 0x3)"] =
      .ok [.reset, .write 0 0x0, .write 0 0x1, .write 0 0x2, .write 0 0x3]) ∧
  (assemble ["SETCFG 3, 8, 11", "FRAME 0xB, 3, 8, 0xD6"] =
      .ok [.write 3 0xB0803, .write 2 0xB, .write 3 0x803, .write 4 0xD6]) ∧
  assemble ["WR DATA, 0x10000000000000000"] = .error .literalTooWide ∧
  assemble ["SETCFG 3, 128, 11"] = .error .fieldOutOfRange

/-- R78, SETCFG with R22's layout: its one write to CFG sets the three fields to the three numbers. -/
def Obligations.SetcfgSetsTheFields : Prop :=
  ∀ (s : State) (deg k total : Nat), deg ≤ 127 → k ≤ 127 → total ≤ 127 → ∃ v : Word,
    expandLine (.setcfg deg k total) = .ok [.write 3 v] ∧
      hostWrite 3 v s = .next
        { s with deg := BitVec.ofNat 7 deg, k := BitVec.ofNat 7 k, total := BitVec.ofNat 7 total }
end

