-- ==== Sys2Proof/Laws/Divider.lean ====
section
/-!
SUPPORT. What the checks, one micro-step and a run of micro-steps can do, said once (R101, R104, R105, R134).
-/

namespace Sys2Proof.Machine

theorem maskN_lt (n v : Nat) : maskN n v < 2 ^ n := Nat.mod_lt _ (Nat.two_pow_pos n)

theorem maskN_of_lt {n v : Nat} (h : v < 2 ^ n) : maskN n v = v := Nat.mod_eq_of_lt h

theorem checkGenerator_eq_none_iff {p : Params} {g r : Nat} :
    checkGenerator p g r = none ↔ GeneratorPre p g r := by
  unfold checkGenerator
  by_cases ht : g.testBit r = false
  · simp [ht]
  · by_cases hh : g < 2 ^ (r + 1)
    · by_cases he : p.evenGen = .fault ∧ g.testBit 0 = false <;> simp_all [GeneratorPre]
    · simp [ht, hh, GeneratorPre]

/-- The check of Divide passes exactly on the legal operands of R101. -/
theorem checkDivider_eq_none_iff {p : Params} {n g r : Nat} :
    checkDivider p n g r = none ↔ DividerPre p n g r := by
  unfold checkDivider
  by_cases h1 : r ≤ p.W - 1
  · by_cases h2 : r ≤ n ∧ n ≤ p.W
    · simp [h1, h2, checkGenerator_eq_none_iff, DividerPre]
    · simp [h1, h2, DividerPre]
  · simp [h1, DividerPre]

/-- The check of the codec passes exactly on the legal operands of R134. -/
theorem checkCodec_eq_none_iff {p : Params} {k g r : Nat} :
    checkCodec p k g r = none ↔ CodecPre p k g r := by
  unfold checkCodec
  by_cases h1 : r ≤ p.W - 1
  · by_cases h2 : k + r ≤ p.W
    · simp [h1, h2, checkGenerator_eq_none_iff, CodecPre]
    · simp [h1, h2, CodecPre]
  · simp [h1, CodecPre]

/-- A codec call that passes its check passes the divider's (R134). -/
theorem CodecPre.dividerPre {p : Params} {k g r : Nat} (h : CodecPre p k g r) : DividerPre p (k + r) g r :=
  ⟨h.1, ⟨Nat.le_add_left r k, h.2.1⟩, h.2.2⟩

theorem divide_of_pre {p : Params} {n g r : Nat} (s : Nat) (h : DividerPre p n g r) :
    divide p s n g r = .ok { rem := maskN r (dividerEnd p.W n s g r).op, last := dividerEnd p.W n s g r } := by
  simp only [divide, checkDivider_eq_none_iff.mpr h]

theorem computeFcs_of_pre {p : Params} {k g r : Nat} (data : Nat) (h : CodecPre p k g r) :
    computeFcs p data k g r = divide p (fcsStream data k r) (k + r) g r := by
  simp only [computeFcs, checkCodec_eq_none_iff.mpr h]

theorem syndrome_of_pre {p : Params} {k g r : Nat} (data fcs : Nat) (h : CodecPre p k g r) :
    syndrome p data k g r fcs = divide p (syndromeStream data k r fcs) (k + r) g r := by
  simp only [syndrome, checkCodec_eq_none_iff.mpr h]

/-- What one micro-step can do: the reduction, the bring-down and the end, with the tests that select them (R104). -/
theorem dividerStep_cases (W n s g r : Nat) (d : Divider) :
    (d.op.testBit r = true ∧ dividerStep W n s g r d = .step { op := d.op ^^^ g, cur := d.cur }) ∨
    (d.op.testBit r = false ∧ d.cur < n ∧ dividerStep W n s g r d =
      .step { op := maskN W ((d.op <<< 1) ||| streamBit n s d.cur), cur := d.cur + 1 }) ∨
    (d.op.testBit r = false ∧ n ≤ d.cur ∧ dividerStep W n s g r d = .finished d.op) := by
  unfold dividerStep
  by_cases h1 : d.op.testBit r = true
  · exact .inl ⟨h1, if_pos h1⟩
  · have h1' : d.op.testBit r = false := by simpa using h1
    by_cases h2 : d.cur < n
    · exact .inr (.inl ⟨h1', h2, by rw [if_neg h1, if_pos h2]⟩)
    · exact .inr (.inr ⟨h1', Nat.le_of_not_lt h2, by rw [if_neg h1, if_neg h2]⟩)

/-- A property that every micro-step keeps holds after a run of any length. -/
theorem dividerRun_keeps {W n s g r : Nat} {P : Divider → Prop}
    (hstep : ∀ d d', P d → dividerStep W n s g r d = .step d' → P d')
    (fuel : Nat) (d : Divider) (h : P d) : P (dividerRun W n s g r fuel d) := by
  induction fuel generalizing d with
  | zero => exact h
  | succ fuel ih =>
    unfold dividerRun
    cases hs : dividerStep W n s g r d with
    | step d' => exact ih d' (hstep d d' h hs)
    | finished op => exact h

/-- A run of a + b micro-steps is a run of a and then of b. -/
theorem dividerRun_add (W n s g r a b : Nat) (d : Divider) :
    dividerRun W n s g r (a + b) d = dividerRun W n s g r b (dividerRun W n s g r a d) := by
  induction a generalizing d with
  | zero => simp [dividerRun]
  | succ a ih =>
    rw [Nat.succ_add]
    cases hs : dividerStep W n s g r d with
    | step d' => simp only [dividerRun, hs, ih]
    | finished op =>
      have stay : ∀ m, dividerRun W n s g r m d = d := by
        intro m
        cases m <;> simp [dividerRun, hs]
      simp only [stay]

end Sys2Proof.Machine
end

