-- ==== Sys2Proof/Laws/State.lean ====
section
/-!
SUPPORT. What each register update does to each field of State, one lemma a field, so that no proof unfolds an update.
-/

namespace Sys2Proof.Machine

variable (s : State)

@[simp] theorem State.setIll_done (b : Bool) : (s.setIll b).done = s.done := rfl
@[simp] theorem State.setIll_zero (b : Bool) : (s.setIll b).zero = s.zero := rfl
@[simp] theorem State.setIll_ill (b : Bool) : (s.setIll b).ill = b := rfl
@[simp] theorem State.setIll_gen (b : Bool) : (s.setIll b).gen = s.gen := rfl
@[simp] theorem State.setIll_deg (b : Bool) : (s.setIll b).deg = s.deg := rfl
@[simp] theorem State.setIll_k (b : Bool) : (s.setIll b).k = s.k := rfl
@[simp] theorem State.setIll_total (b : Bool) : (s.setIll b).total = s.total := rfl
@[simp] theorem State.setIll_data (b : Bool) : (s.setIll b).data = s.data := rfl
@[simp] theorem State.setIll_fcs (b : Bool) : (s.setIll b).fcs = s.fcs := rfl
@[simp] theorem State.setIll_result (b : Bool) : (s.setIll b).result = s.result := rfl
@[simp] theorem State.setIll_op (b : Bool) : (s.setIll b).op = s.op := rfl
@[simp] theorem State.setIll_cur (b : Bool) : (s.setIll b).cur = s.cur := rfl
@[simp] theorem State.setIll_fault (b : Bool) : (s.setIll b).fault = s.fault := rfl
@[simp] theorem State.setIll_params (b : Bool) : (s.setIll b).params = s.params := rfl
@[simp] theorem State.setIll_pending (b : Bool) : (s.setIll b).pending = s.pending := rfl
@[simp] theorem State.setIll_returned (b : Bool) : (s.setIll b).returned = s.returned := rfl

@[simp] theorem State.setOperationFlags_done (rem : Nat) : (s.setOperationFlags rem).done = true := rfl
@[simp] theorem State.setOperationFlags_zero (rem : Nat) : (s.setOperationFlags rem).zero = zeroFlag rem := rfl
@[simp] theorem State.setOperationFlags_ill (rem : Nat) : (s.setOperationFlags rem).ill = false := rfl
@[simp] theorem State.setOperationFlags_gen (rem : Nat) : (s.setOperationFlags rem).gen = s.gen := rfl
@[simp] theorem State.setOperationFlags_deg (rem : Nat) : (s.setOperationFlags rem).deg = s.deg := rfl
@[simp] theorem State.setOperationFlags_k (rem : Nat) : (s.setOperationFlags rem).k = s.k := rfl
@[simp] theorem State.setOperationFlags_total (rem : Nat) : (s.setOperationFlags rem).total = s.total := rfl
@[simp] theorem State.setOperationFlags_data (rem : Nat) : (s.setOperationFlags rem).data = s.data := rfl
@[simp] theorem State.setOperationFlags_fcs (rem : Nat) : (s.setOperationFlags rem).fcs = s.fcs := rfl
@[simp] theorem State.setOperationFlags_result (rem : Nat) : (s.setOperationFlags rem).result = s.result := rfl
@[simp] theorem State.setOperationFlags_op (rem : Nat) : (s.setOperationFlags rem).op = s.op := rfl
@[simp] theorem State.setOperationFlags_cur (rem : Nat) : (s.setOperationFlags rem).cur = s.cur := rfl
@[simp] theorem State.setOperationFlags_fault (rem : Nat) : (s.setOperationFlags rem).fault = s.fault := rfl
@[simp] theorem State.setOperationFlags_params (rem : Nat) : (s.setOperationFlags rem).params = s.params := rfl
@[simp] theorem State.setOperationFlags_pending (rem : Nat) : (s.setOperationFlags rem).pending = s.pending := rfl
@[simp] theorem State.setOperationFlags_returned (rem : Nat) : (s.setOperationFlags rem).returned = s.returned := rfl

@[simp] theorem State.setGen_done (v : Word) : (s.setGen v).done = s.done := rfl
@[simp] theorem State.setGen_zero (v : Word) : (s.setGen v).zero = s.zero := rfl
@[simp] theorem State.setGen_ill (v : Word) : (s.setGen v).ill = s.ill := rfl
@[simp] theorem State.setGen_gen (v : Word) : (s.setGen v).gen = v := rfl
@[simp] theorem State.setGen_deg (v : Word) : (s.setGen v).deg = s.deg := rfl
@[simp] theorem State.setGen_k (v : Word) : (s.setGen v).k = s.k := rfl
@[simp] theorem State.setGen_total (v : Word) : (s.setGen v).total = s.total := rfl
@[simp] theorem State.setGen_data (v : Word) : (s.setGen v).data = s.data := rfl
@[simp] theorem State.setGen_fcs (v : Word) : (s.setGen v).fcs = s.fcs := rfl
@[simp] theorem State.setGen_result (v : Word) : (s.setGen v).result = s.result := rfl
@[simp] theorem State.setGen_op (v : Word) : (s.setGen v).op = s.op := rfl
@[simp] theorem State.setGen_cur (v : Word) : (s.setGen v).cur = s.cur := rfl
@[simp] theorem State.setGen_fault (v : Word) : (s.setGen v).fault = s.fault := rfl
@[simp] theorem State.setGen_params (v : Word) : (s.setGen v).params = s.params := rfl
@[simp] theorem State.setGen_pending (v : Word) : (s.setGen v).pending = s.pending := rfl
@[simp] theorem State.setGen_returned (v : Word) : (s.setGen v).returned = s.returned := rfl

@[simp] theorem State.setCfg_done (v : Word) : (s.setCfg v).done = s.done := rfl
@[simp] theorem State.setCfg_zero (v : Word) : (s.setCfg v).zero = s.zero := rfl
@[simp] theorem State.setCfg_ill (v : Word) : (s.setCfg v).ill = s.ill := rfl
@[simp] theorem State.setCfg_gen (v : Word) : (s.setCfg v).gen = s.gen := rfl
@[simp] theorem State.setCfg_deg (v : Word) : (s.setCfg v).deg = cfgDeg v := rfl
@[simp] theorem State.setCfg_k (v : Word) : (s.setCfg v).k = cfgK v := rfl
@[simp] theorem State.setCfg_total (v : Word) : (s.setCfg v).total = cfgTotal v := rfl
@[simp] theorem State.setCfg_data (v : Word) : (s.setCfg v).data = s.data := rfl
@[simp] theorem State.setCfg_fcs (v : Word) : (s.setCfg v).fcs = s.fcs := rfl
@[simp] theorem State.setCfg_result (v : Word) : (s.setCfg v).result = s.result := rfl
@[simp] theorem State.setCfg_op (v : Word) : (s.setCfg v).op = s.op := rfl
@[simp] theorem State.setCfg_cur (v : Word) : (s.setCfg v).cur = s.cur := rfl
@[simp] theorem State.setCfg_fault (v : Word) : (s.setCfg v).fault = s.fault := rfl
@[simp] theorem State.setCfg_params (v : Word) : (s.setCfg v).params = s.params := rfl
@[simp] theorem State.setCfg_pending (v : Word) : (s.setCfg v).pending = s.pending := rfl
@[simp] theorem State.setCfg_returned (v : Word) : (s.setCfg v).returned = s.returned := rfl

@[simp] theorem State.setData_done (v : Word) : (s.setData v).done = s.done := rfl
@[simp] theorem State.setData_zero (v : Word) : (s.setData v).zero = s.zero := rfl
@[simp] theorem State.setData_ill (v : Word) : (s.setData v).ill = s.ill := rfl
@[simp] theorem State.setData_gen (v : Word) : (s.setData v).gen = s.gen := rfl
@[simp] theorem State.setData_deg (v : Word) : (s.setData v).deg = s.deg := rfl
@[simp] theorem State.setData_k (v : Word) : (s.setData v).k = s.k := rfl
@[simp] theorem State.setData_total (v : Word) : (s.setData v).total = s.total := rfl
@[simp] theorem State.setData_data (v : Word) : (s.setData v).data = v := rfl
@[simp] theorem State.setData_fcs (v : Word) : (s.setData v).fcs = s.fcs := rfl
@[simp] theorem State.setData_result (v : Word) : (s.setData v).result = s.result := rfl
@[simp] theorem State.setData_op (v : Word) : (s.setData v).op = s.op := rfl
@[simp] theorem State.setData_cur (v : Word) : (s.setData v).cur = s.cur := rfl
@[simp] theorem State.setData_fault (v : Word) : (s.setData v).fault = s.fault := rfl
@[simp] theorem State.setData_params (v : Word) : (s.setData v).params = s.params := rfl
@[simp] theorem State.setData_pending (v : Word) : (s.setData v).pending = s.pending := rfl
@[simp] theorem State.setData_returned (v : Word) : (s.setData v).returned = s.returned := rfl

@[simp] theorem State.setFcs_done (v : Word) : (s.setFcs v).done = s.done := rfl
@[simp] theorem State.setFcs_zero (v : Word) : (s.setFcs v).zero = s.zero := rfl
@[simp] theorem State.setFcs_ill (v : Word) : (s.setFcs v).ill = s.ill := rfl
@[simp] theorem State.setFcs_gen (v : Word) : (s.setFcs v).gen = s.gen := rfl
@[simp] theorem State.setFcs_deg (v : Word) : (s.setFcs v).deg = s.deg := rfl
@[simp] theorem State.setFcs_k (v : Word) : (s.setFcs v).k = s.k := rfl
@[simp] theorem State.setFcs_total (v : Word) : (s.setFcs v).total = s.total := rfl
@[simp] theorem State.setFcs_data (v : Word) : (s.setFcs v).data = s.data := rfl
@[simp] theorem State.setFcs_fcs (v : Word) : (s.setFcs v).fcs = v := rfl
@[simp] theorem State.setFcs_result (v : Word) : (s.setFcs v).result = s.result := rfl
@[simp] theorem State.setFcs_op (v : Word) : (s.setFcs v).op = s.op := rfl
@[simp] theorem State.setFcs_cur (v : Word) : (s.setFcs v).cur = s.cur := rfl
@[simp] theorem State.setFcs_fault (v : Word) : (s.setFcs v).fault = s.fault := rfl
@[simp] theorem State.setFcs_params (v : Word) : (s.setFcs v).params = s.params := rfl
@[simp] theorem State.setFcs_pending (v : Word) : (s.setFcs v).pending = s.pending := rfl
@[simp] theorem State.setFcs_returned (v : Word) : (s.setFcs v).returned = s.returned := rfl

@[simp] theorem State.setResult_done (rem : Nat) : (s.setResult rem).done = s.done := rfl
@[simp] theorem State.setResult_zero (rem : Nat) : (s.setResult rem).zero = s.zero := rfl
@[simp] theorem State.setResult_ill (rem : Nat) : (s.setResult rem).ill = s.ill := rfl
@[simp] theorem State.setResult_gen (rem : Nat) : (s.setResult rem).gen = s.gen := rfl
@[simp] theorem State.setResult_deg (rem : Nat) : (s.setResult rem).deg = s.deg := rfl
@[simp] theorem State.setResult_k (rem : Nat) : (s.setResult rem).k = s.k := rfl
@[simp] theorem State.setResult_total (rem : Nat) : (s.setResult rem).total = s.total := rfl
@[simp] theorem State.setResult_data (rem : Nat) : (s.setResult rem).data = s.data := rfl
@[simp] theorem State.setResult_fcs (rem : Nat) : (s.setResult rem).fcs = s.fcs := rfl
@[simp] theorem State.setResult_result (rem : Nat) : (s.setResult rem).result = BitVec.ofNat 64 rem := rfl
@[simp] theorem State.setResult_op (rem : Nat) : (s.setResult rem).op = s.op := rfl
@[simp] theorem State.setResult_cur (rem : Nat) : (s.setResult rem).cur = s.cur := rfl
@[simp] theorem State.setResult_fault (rem : Nat) : (s.setResult rem).fault = s.fault := rfl
@[simp] theorem State.setResult_params (rem : Nat) : (s.setResult rem).params = s.params := rfl
@[simp] theorem State.setResult_pending (rem : Nat) : (s.setResult rem).pending = s.pending := rfl
@[simp] theorem State.setResult_returned (rem : Nat) : (s.setResult rem).returned = s.returned := rfl

@[simp] theorem State.setDivider_done (d : Divider) : (s.setDivider d).done = s.done := rfl
@[simp] theorem State.setDivider_zero (d : Divider) : (s.setDivider d).zero = s.zero := rfl
@[simp] theorem State.setDivider_ill (d : Divider) : (s.setDivider d).ill = s.ill := rfl
@[simp] theorem State.setDivider_gen (d : Divider) : (s.setDivider d).gen = s.gen := rfl
@[simp] theorem State.setDivider_deg (d : Divider) : (s.setDivider d).deg = s.deg := rfl
@[simp] theorem State.setDivider_k (d : Divider) : (s.setDivider d).k = s.k := rfl
@[simp] theorem State.setDivider_total (d : Divider) : (s.setDivider d).total = s.total := rfl
@[simp] theorem State.setDivider_data (d : Divider) : (s.setDivider d).data = s.data := rfl
@[simp] theorem State.setDivider_fcs (d : Divider) : (s.setDivider d).fcs = s.fcs := rfl
@[simp] theorem State.setDivider_result (d : Divider) : (s.setDivider d).result = s.result := rfl
@[simp] theorem State.setDivider_op (d : Divider) : (s.setDivider d).op = BitVec.ofNat 64 d.op := rfl
@[simp] theorem State.setDivider_cur (d : Divider) : (s.setDivider d).cur = BitVec.ofNat 7 d.cur := rfl
@[simp] theorem State.setDivider_fault (d : Divider) : (s.setDivider d).fault = s.fault := rfl
@[simp] theorem State.setDivider_params (d : Divider) : (s.setDivider d).params = s.params := rfl
@[simp] theorem State.setDivider_pending (d : Divider) : (s.setDivider d).pending = s.pending := rfl
@[simp] theorem State.setDivider_returned (d : Divider) : (s.setDivider d).returned = s.returned := rfl

@[simp] theorem State.setFault_done (f : FaultRecord) : (s.setFault f).done = s.done := rfl
@[simp] theorem State.setFault_zero (f : FaultRecord) : (s.setFault f).zero = s.zero := rfl
@[simp] theorem State.setFault_ill (f : FaultRecord) : (s.setFault f).ill = s.ill := rfl
@[simp] theorem State.setFault_gen (f : FaultRecord) : (s.setFault f).gen = s.gen := rfl
@[simp] theorem State.setFault_deg (f : FaultRecord) : (s.setFault f).deg = s.deg := rfl
@[simp] theorem State.setFault_k (f : FaultRecord) : (s.setFault f).k = s.k := rfl
@[simp] theorem State.setFault_total (f : FaultRecord) : (s.setFault f).total = s.total := rfl
@[simp] theorem State.setFault_data (f : FaultRecord) : (s.setFault f).data = s.data := rfl
@[simp] theorem State.setFault_fcs (f : FaultRecord) : (s.setFault f).fcs = s.fcs := rfl
@[simp] theorem State.setFault_result (f : FaultRecord) : (s.setFault f).result = s.result := rfl
@[simp] theorem State.setFault_op (f : FaultRecord) : (s.setFault f).op = s.op := rfl
@[simp] theorem State.setFault_cur (f : FaultRecord) : (s.setFault f).cur = s.cur := rfl
@[simp] theorem State.setFault_fault (f : FaultRecord) : (s.setFault f).fault = some f := rfl
@[simp] theorem State.setFault_params (f : FaultRecord) : (s.setFault f).params = s.params := rfl
@[simp] theorem State.setFault_pending (f : FaultRecord) : (s.setFault f).pending = s.pending := rfl
@[simp] theorem State.setFault_returned (f : FaultRecord) : (s.setFault f).returned = s.returned := rfl

@[simp] theorem State.setPending_done (as : List Access) : (s.setPending as).done = s.done := rfl
@[simp] theorem State.setPending_zero (as : List Access) : (s.setPending as).zero = s.zero := rfl
@[simp] theorem State.setPending_ill (as : List Access) : (s.setPending as).ill = s.ill := rfl
@[simp] theorem State.setPending_gen (as : List Access) : (s.setPending as).gen = s.gen := rfl
@[simp] theorem State.setPending_deg (as : List Access) : (s.setPending as).deg = s.deg := rfl
@[simp] theorem State.setPending_k (as : List Access) : (s.setPending as).k = s.k := rfl
@[simp] theorem State.setPending_total (as : List Access) : (s.setPending as).total = s.total := rfl
@[simp] theorem State.setPending_data (as : List Access) : (s.setPending as).data = s.data := rfl
@[simp] theorem State.setPending_fcs (as : List Access) : (s.setPending as).fcs = s.fcs := rfl
@[simp] theorem State.setPending_result (as : List Access) : (s.setPending as).result = s.result := rfl
@[simp] theorem State.setPending_op (as : List Access) : (s.setPending as).op = s.op := rfl
@[simp] theorem State.setPending_cur (as : List Access) : (s.setPending as).cur = s.cur := rfl
@[simp] theorem State.setPending_fault (as : List Access) : (s.setPending as).fault = s.fault := rfl
@[simp] theorem State.setPending_params (as : List Access) : (s.setPending as).params = s.params := rfl
@[simp] theorem State.setPending_pending (as : List Access) : (s.setPending as).pending = as := rfl
@[simp] theorem State.setPending_returned (as : List Access) : (s.setPending as).returned = s.returned := rfl

@[simp] theorem State.giveToHost_done (v : Word) : (s.giveToHost v).done = s.done := rfl
@[simp] theorem State.giveToHost_zero (v : Word) : (s.giveToHost v).zero = s.zero := rfl
@[simp] theorem State.giveToHost_ill (v : Word) : (s.giveToHost v).ill = s.ill := rfl
@[simp] theorem State.giveToHost_gen (v : Word) : (s.giveToHost v).gen = s.gen := rfl
@[simp] theorem State.giveToHost_deg (v : Word) : (s.giveToHost v).deg = s.deg := rfl
@[simp] theorem State.giveToHost_k (v : Word) : (s.giveToHost v).k = s.k := rfl
@[simp] theorem State.giveToHost_total (v : Word) : (s.giveToHost v).total = s.total := rfl
@[simp] theorem State.giveToHost_data (v : Word) : (s.giveToHost v).data = s.data := rfl
@[simp] theorem State.giveToHost_fcs (v : Word) : (s.giveToHost v).fcs = s.fcs := rfl
@[simp] theorem State.giveToHost_result (v : Word) : (s.giveToHost v).result = s.result := rfl
@[simp] theorem State.giveToHost_op (v : Word) : (s.giveToHost v).op = s.op := rfl
@[simp] theorem State.giveToHost_cur (v : Word) : (s.giveToHost v).cur = s.cur := rfl
@[simp] theorem State.giveToHost_fault (v : Word) : (s.giveToHost v).fault = s.fault := rfl
@[simp] theorem State.giveToHost_params (v : Word) : (s.giveToHost v).params = s.params := rfl
@[simp] theorem State.giveToHost_pending (v : Word) : (s.giveToHost v).pending = s.pending := rfl
@[simp] theorem State.giveToHost_returned (v : Word) : (s.giveToHost v).returned = s.returned ++ [v] := rfl

@[simp] theorem State.resetEvent_done : (s.resetEvent).done = false := rfl
@[simp] theorem State.resetEvent_zero : (s.resetEvent).zero = false := rfl
@[simp] theorem State.resetEvent_ill : (s.resetEvent).ill = false := rfl
@[simp] theorem State.resetEvent_gen : (s.resetEvent).gen = 0 := rfl
@[simp] theorem State.resetEvent_deg : (s.resetEvent).deg = 0 := rfl
@[simp] theorem State.resetEvent_k : (s.resetEvent).k = 0 := rfl
@[simp] theorem State.resetEvent_total : (s.resetEvent).total = 0 := rfl
@[simp] theorem State.resetEvent_data : (s.resetEvent).data = 0 := rfl
@[simp] theorem State.resetEvent_fcs : (s.resetEvent).fcs = 0 := rfl
@[simp] theorem State.resetEvent_result : (s.resetEvent).result = 0 := rfl
@[simp] theorem State.resetEvent_op : (s.resetEvent).op = 0 := rfl
@[simp] theorem State.resetEvent_cur : (s.resetEvent).cur = 0 := rfl
@[simp] theorem State.resetEvent_fault : (s.resetEvent).fault = s.fault := rfl
@[simp] theorem State.resetEvent_params : (s.resetEvent).params = s.params := rfl
@[simp] theorem State.resetEvent_pending : (s.resetEvent).pending = s.pending := rfl
@[simp] theorem State.resetEvent_returned : (s.resetEvent).returned = s.returned := rfl

end Sys2Proof.Machine
end

