-- ==== Sys2Proof/Laws/Ops.lean ====
section
/-!
SUPPORT. What each shared operation can do, said once: slots, completion, faults, commands, accesses and steps.
-/

namespace Sys2Proof.Machine

@[simp] theorem slot_ofIndex_0 : Slot.ofIndex 0 = .cmd := rfl
@[simp] theorem slot_ofIndex_1 : Slot.ofIndex 1 = .status := rfl
@[simp] theorem slot_ofIndex_2 : Slot.ofIndex 2 = .gen := rfl
@[simp] theorem slot_ofIndex_3 : Slot.ofIndex 3 = .cfg := rfl
@[simp] theorem slot_ofIndex_4 : Slot.ofIndex 4 = .data := rfl
@[simp] theorem slot_ofIndex_5 : Slot.ofIndex 5 = .fcs := rfl
@[simp] theorem slot_ofIndex_6 : Slot.ofIndex 6 = .result := rfl
@[simp] theorem slot_ofIndex_7 : Slot.ofIndex 7 = .slot7 := rfl

/-- Complete writes RESULT, the flags and the divider, and nothing else (R156). -/
theorem complete_eq (d : Division) (s : State) :
    complete d s =
      { s with
        result := BitVec.ofNat 64 d.rem, done := true, zero := d.rem == 0, ill := false
        op := BitVec.ofNat 64 d.last.op, cur := BitVec.ofNat 7 d.last.cur } := rfl

/-- An operation goes on only by completing with the division it computed. -/
theorem finishOperation_next {i : Instr} {r : Except FaultReason Division} {s t : State}
    (h : finishOperation i r s = .next t) : ∃ d, r = .ok d ∧ t = complete d s := by
  cases r with
  | error why => cases h
  | ok d => cases h; exact ⟨d, rfl, rfl⟩

/-- An operation stops only by raising the fault of its failed check. -/
theorem finishOperation_fault {i : Instr} {r : Except FaultReason Division} {s : State} {f : Fault}
    (h : finishOperation i r s = .fault f) : ∃ why, r = .error why ∧ f = raiseFault i why s := by
  cases r with
  | error why => cases h; exact ⟨why, rfl, rfl⟩
  | ok d => cases h

/-- What a command that goes on can do: NOP clears ILL, an operation completes with some division. -/
theorem exec_next_cases {i : Instr} {s t : State} (h : exec i s = .next t) :
    (i = .nop ∧ t = s.setIll false) ∨ (i ≠ .nop ∧ ∃ d, t = complete d s) := by
  cases i with
  | nop => cases h; exact .inl ⟨rfl, rfl⟩
  | divide => obtain ⟨d, -, rfl⟩ := finishOperation_next h; exact .inr ⟨by decide, d, rfl⟩
  | computeFcs => obtain ⟨d, -, rfl⟩ := finishOperation_next h; exact .inr ⟨by decide, d, rfl⟩
  | verify => obtain ⟨d, -, rfl⟩ := finishOperation_next h; exact .inr ⟨by decide, d, rfl⟩

/-- A command that stops is an operation command, and raises the fault of a reason. -/
theorem exec_fault_cases {i : Instr} {s : State} {f : Fault} (h : exec i s = .fault f) :
    i ≠ .nop ∧ ∃ why, f = raiseFault i why s := by
  cases i with
  | nop => cases h
  | divide => obtain ⟨why, -, rfl⟩ := finishOperation_fault h; exact ⟨by decide, why, rfl⟩
  | computeFcs => obtain ⟨why, -, rfl⟩ := finishOperation_fault h; exact ⟨by decide, why, rfl⟩
  | verify => obtain ⟨why, -, rfl⟩ := finishOperation_fault h; exact ⟨by decide, why, rfl⟩

/-- No command is refused. -/
theorem exec_not_refused (i : Instr) (s : State) (r : Refusal) : exec i s ≠ .refused r := by
  have finish : ∀ (j : Instr) (e : Except FaultReason Division), finishOperation j e s ≠ .refused r := by
    intro j e h
    cases e <;> cases h
  cases i with
  | nop => intro h; cases h
  | divide => exact finish _ _
  | computeFcs => exact finish _ _
  | verify => exact finish _ _

/-- What an issued word can do: run the command it decodes to, or set ILL. -/
theorem issueCommand_cases (w : Word) (s : State) :
    (∃ i, decode w = .legal i ∧ issueCommand w s = exec i s) ∨
    (decode w = .illegal ∧ issueCommand w s = .next (s.setIll true)) := by
  unfold issueCommand
  cases hd : decode w with
  | legal i => exact .inl ⟨i, rfl, rfl⟩
  | illegal => exact .inr ⟨rfl, rfl⟩

/-- What a write can do: issue a command, store to one register, or nothing (R52). -/
theorem writeSlot_cases (slot : Slot) (v : Word) (s : State) :
    (slot = .cmd ∧ writeSlot slot v s = issueCommand v s) ∨
    (slot ≠ .cmd ∧ ∃ t, writeSlot slot v s = .next t ∧
      (t = s ∨ t = s.setGen v ∨ t = s.setCfg v ∨ t = s.setData v ∨ t = s.setFcs v)) := by
  cases slot <;> simp [writeSlot]

/-- What one access can do, all of it (R52, R53, R190). -/
theorem perform_cases (a : Access) (s : State) :
    (∃ i v, a = .write i v ∧ Slot.ofIndex i = .cmd ∧ perform a s = issueCommand v s) ∨
    (∃ i v t, a = .write i v ∧ perform a s = .next t ∧
      (t = s ∨ t = s.setGen v ∨ t = s.setCfg v ∨ t = s.setData v ∨ t = s.setFcs v)) ∨
    (∃ i, a = .read i ∧ perform a s = .next (s.giveToHost (hostRead i s))) ∨
    (a = .reset ∧ perform a s = .next s.resetEvent) := by
  cases a with
  | write i v =>
    rcases writeSlot_cases (Slot.ofIndex i) v s with ⟨hc, h⟩ | ⟨-, t, h, ht⟩
    · exact .inl ⟨i, v, rfl, hc, h⟩
    · exact .inr (.inl ⟨i, v, t, rfl, h, ht⟩)
  | read i => exact .inr (.inr (.inl ⟨i, rfl, rfl⟩))
  | reset => exact .inr (.inr (.inr ⟨rfl, rfl⟩))

/-- A step makes the first pending access, or waits. -/
theorem step_cases (s : State) :
    (s.pending = [] ∧ step s = .next s) ∨
    (∃ a rest, s.pending = a :: rest ∧ step s = perform a (s.setPending rest)) := by
  unfold step nextAccess
  cases hp : s.pending with
  | nil => exact .inl ⟨rfl, rfl⟩
  | cons a rest => exact .inr ⟨a, rest, rfl, rfl⟩

end Sys2Proof.Machine
end

