-- ==== Sys2Proof/Laws/PerInstr.lean ====
section
/-!
SUPPORT. Statements made per command: its encoding.
-/

namespace Sys2Proof.Laws.Encoding

/-- A command is well formed, its word has RSV = 0 and an assigned OPC (R70, R72), and the host's table view reads it
back. -/
def Statement (i : Instr) : Prop :=
  i.wf = true ∧ commandWordWf (encode i) = true ∧ decodeTableWord 64 (encode i).toNat = some i

theorem nop : Statement .nop := by unfold Statement; decide
theorem divide : Statement .divide := by unfold Statement; decide
theorem computeFcs : Statement .computeFcs := by unfold Statement; decide
theorem verify : Statement .verify := by unfold Statement; decide

end Sys2Proof.Laws.Encoding
end

