-- ==== Sys2Proof/Tests/Slice0.lean ====
section
/-!
SUPPORT. Tests: expected values from the spec's examples and vectors (95_test_vectors.md and the rules' own examples),
and a witness for the hypotheses of each statement.
-/

namespace Sys2Proof.Machine

/-- The state after reset with these operands written. -/
def operands (gen : Word) (deg k total : Field) (data fcs : Word) : State :=
  { State.reset with gen := gen, deg := deg, k := k, total := total, data := data, fcs := fcs }

/-- The frame of the spec's worked example (V1): GEN = 0xB, DEG = 3, K = 8, TOTAL = 11. -/
def frameOf (data fcs : Word) : State := operands 0xB 3 8 11 data fcs

/-- A parameter set with EVEN_GEN = Compute (R7). -/
def computeParams : Params := { Params.default with evenGen := .compute }

/-- The narrowest machine, W = 1 (R6). -/
def narrowParams : Params := { W := 1, evenGen := .fault, one_le_W := by decide, W_le := by decide }

/-- The next state of an outcome, if it is one. -/
def nextOf (o : Host.Outcome State Fault Refusal) : Option State :=
  match o with
  | .next s => some s
  | .fault _ => none
  | .refused _ => none

/-- The fault of an outcome, if it is one. -/
def faultIn (o : Host.Outcome State Fault Refusal) : Option Fault :=
  match o with
  | .next _ => none
  | .fault f => some f
  | .refused _ => none

/-- RESULT and STATUS as the host reads them in the next state. -/
def readsOf (o : Host.Outcome State Fault Refusal) : Option (Word × Word) :=
  match nextOf o with
  | some s => some (hostRead 6 s, hostRead 1 s)
  | none => none

-- Well-formedness: each check refuses an ill-formed term (R70, R72, R77, R78).

theorem test_wf_rsv_nonzero : commandWordWf 0x10 = false := by decide
theorem test_wf_opc_unassigned : commandWordWf 0x4 = false := by decide
theorem test_wf_command_words : (commandWordWf 0x0 && commandWordWf 0x3) = true := by decide
theorem test_wf_literal_too_wide : Line.wf (.wr .gen (2 ^ 64)) = false := by decide
theorem test_wf_deg_too_large : Line.wf (.setcfg 128 8 0) = false := by decide
theorem test_wf_k_too_large : Line.wf (.setcfg 3 128 0) = false := by decide
theorem test_wf_total_too_large : Line.wf (.setcfg 3 8 128) = false := by decide
theorem test_wf_frame_generator_too_wide : Line.wf (.frame (2 ^ 64) 3 8 0xD6) = false := by decide
theorem test_wf_frame_data_too_wide : Line.wf (.frame 0xB 3 8 (2 ^ 64)) = false := by decide
theorem test_wf_frame_fields_too_large :
    (Line.wf (.frame 0xB 128 8 0xD6) || Line.wf (.frame 0xB 3 128 0xD6)) = false := by decide
theorem test_wf_lines : (Line.wf (.setcfg 127 127 127) && Line.wf (.wr .data (2 ^ 64 - 1))) = true := by decide

-- Decoding: words written out from R70's format, RSV in [63:4] and OPC in [3:0].

theorem test_decode_nop : decode ((0 : BitVec 60) ++ 0b0000#4) = .legal .nop := by decide
theorem test_decode_divide : decode ((0 : BitVec 60) ++ 0b0001#4) = .legal .divide := by decide
theorem test_decode_compute_fcs : decode ((0 : BitVec 60) ++ 0b0010#4) = .legal .computeFcs := by decide
theorem test_decode_verify : decode ((0 : BitVec 60) ++ 0b0011#4) = .legal .verify := by decide
theorem test_decode_low_rsv_bit : decode ((1 : BitVec 60) ++ 0b0000#4) = .illegal := by decide
theorem test_decode_high_rsv_bit : decode (0b1#1 ++ (0 : BitVec 59) ++ 0b0011#4) = .illegal := by decide
theorem test_decode_opc_4_and_f : decode 0x4 = .illegal ∧ decode 0xF = .illegal := by decide
theorem test_table_words : decodeTableWord 64 0x1 = some .divide ∧ decodeTableWord 64 0x4 = none ∧
    decodeTableWord 72 (2 ^ 64 + 1) = none := by decide

-- Commands (R151 to R155, their own examples).

/-- R151: with STATUS = 0x7, NOP leaves STATUS = 0x3. -/
theorem test_nop_example :
    readsOf (exec .nop { State.reset with done := true, zero := true, ill := true }) = some (0x0, 0x3) := by decide
/-- R152: the DIVIDE example. -/
theorem test_divide_example : readsOf (exec .divide (operands 0xB 3 0 11 0x6B0 0)) = some (0x7, 0x1) := by decide
/-- V2 group A: n = W, the full register. -/
theorem test_divide_full_register :
    readsOf (exec .divide (operands 0xB 3 0 64 0xFFFFFFFFFFFFFFFF 0)) = some (0x1, 0x1) := by decide
/-- R153: the COMPUTE_FCS example. -/
theorem test_compute_fcs_example : readsOf (exec .computeFcs (operands 0xB 3 8 0 0xD6 0)) = some (0x7, 0x1) := by decide
/-- V2 group C: the largest degree, r = 63. -/
theorem test_compute_fcs_degree_63 :
    readsOf (exec .computeFcs (operands 0xC000000000000001 63 1 0 0x1 0)) = some (0x4000000000000001, 0x1) := by decide
/-- R154: the VERIFY example, a good frame. -/
theorem test_verify_accepts : readsOf (exec .verify (operands 0xB 3 8 0 0xD6 0x7)) = some (0x0, 0x3) := by decide
/-- R154: the VERIFY example, data bit 0 flipped; P2: FCS bits at or above r are ignored. -/
theorem test_verify_mismatch_and_mask :
    readsOf (exec .verify (operands 0xB 3 8 0 0xD7 0x7)) = some (0x3, 0x1) ∧
      readsOf (exec .verify (operands 0xB 3 8 0 0x5D6 0xFFFFFFFFFFFFFFFF)) = some (0x0, 0x3) := by decide
/-- R155: 0x4 after reset gives STATUS = 0x4, and 0x13 then leaves it. -/
theorem test_illegal_word : readsOf (hostWrite 0 0x4 State.reset) = some (0x0, 0x4) ∧
    readsOf (hostWrite 0 0x13 { State.reset with ill := true }) = some (0x0, 0x4) := by decide
/-- P6: the even generator under EVEN_GEN = Compute, and under Fault. -/
theorem test_even_generator :
    readsOf (exec .computeFcs { operands 0xA 3 8 0 0xD6 0 with params := computeParams }) = some (0x2, 0x1) ∧
      (faultIn (exec .computeFcs (operands 0xA 3 8 0 0xD6 0))).map (fun f => f.left.fault) =
        some (some (.genEven 0x2 0xA)) := by decide
/-- P4: an operation with GEN at its reset value faults GEN_TOP and leaves the registers. -/
theorem test_fault_after_reset : faultIn (exec .computeFcs (operands 0 3 8 0 0xD6 0)) =
    some (.genTop { operands 0 3 8 0 0xD6 0 with fault := some (.genTop 0x2 3 0) }) := by decide

-- Accesses (V2 group F) and the host's table view.

theorem test_cfg_reserved_bits : (nextOf (hostWrite 3 0xFFFFFFFFFF8B0003 State.reset)).map (hostRead 3) =
    some 0x000B0003 := by decide
theorem test_cfg_all_ones : (nextOf (hostWrite 3 0xFFFFFFFFFFFFFFFF State.reset)).map (hostRead 3) =
    some 0x7F7F7F := by decide
theorem test_reset_event : nextOf (perform .reset (frameOf 0xD6 0x7)) = some State.reset := by decide
theorem test_fetch_word_runs_nop :
    nextOf (step (State.withFetchWord { State.reset with ill := true } 64 0)) = some State.reset := by decide
theorem test_fetch_word_runs_divide :
    readsOf (step ((operands 0xB 3 0 11 0x6B0 0).withFetchWord 64 1)) = some (0x7, 0x1) := by decide

-- The divider (40_divider.md): the trace of V1 and function-level faults of V2 group B.

theorem test_trace_step_8 : dividerRun 64 11 0x6B0 0xB 3 8 (dividerInit 11 0x6B0 3) = ⟨0b0100, 8⟩ := by decide
theorem test_trace_step_12 : dividerRun 64 11 0x6B0 0xB 3 12 (dividerInit 11 0x6B0 3) = ⟨0b1100, 11⟩ := by decide
theorem test_final_reduction : dividerEnd 64 11 0x6B0 0xB 3 = ⟨0b0111, 11⟩ := by decide
theorem test_degree_row_comes_first : divide Params.default 0x5 70 (2 ^ 64 + 1) 64 = .error .degRange := by decide

-- The assembler (R77, R78). (decide +kernel: comparing characters is long for the elaborator's own evaluation.)

theorem test_assemble_write : assembleText "WR GEN, 0xB          ; (write, 2, 0x000000000000000B)" =
    .ok [.write 2 0xB] := by decide +kernel
theorem test_assemble_frame : assembleText "FRAME 0b1011, 3, 8, 214" =
    .ok [.write 2 0xB, .write 3 0x803, .write 4 0xD6] := by decide +kernel
theorem test_assemble_program : assemble ["RESET", "  ; only a comment", "VERIFY", "RD STATUS ; -> 0x3"] =
    .ok [.reset, .write 0 0x3, .read 1] := by decide +kernel
theorem test_assemble_too_wide : assembleText "WR DATA, 0x10000000000000000" = .error .literalTooWide := by decide +kernel
theorem test_assemble_field : assembleText "SETCFG 128, 8, 0" = .error .fieldOutOfRange := by decide +kernel
theorem test_assemble_no_comma : assembleText "WR DATA 0x1" = .error .badSyntax := by decide +kernel

-- Witnesses: a state and operands that meet the hypotheses of each statement together, clause by clause.

/-- DivideWritesRemainderAndFlags: ready, at n = r, n = W and r = 0; not ready. -/
theorem witness_divide_ready : (operands 0xB 3 0 11 0x6B0 0).DivideReady ∧ (operands 0xB 3 0 3 0x5 0).DivideReady ∧
    (operands 0xB 3 0 64 0 0).DivideReady ∧ (operands 0x1 0 0 0 0 0).DivideReady ∧ ¬ State.reset.DivideReady := by decide
/-- ComputeFcsWritesFcsAndFlags, VerifyWritesSyndromeAndFlags, ComputeFcsIsRemainderOfShiftedData,
VerifyAcceptsExactlyTheMultiples, FreshFcsVerifies: ready, at k + r = W, k = 0 and r = W - 1; not ready. -/
theorem witness_codec_ready : (frameOf 0xD6 0x7).CodecReady ∧ (operands 0xB 3 61 0 0 0).CodecReady ∧
    (operands 0xB 3 0 0 0 0).CodecReady ∧ (operands 0xC000000000000001 63 1 0 1 0).CodecReady ∧
    ¬ (operands 0xB 3 62 0 0 0).CodecReady := by decide
/-- OperationsFaultOnTheFirstFailingRow, DIVIDE: each row at its boundary. -/
theorem witness_divide_rows :
    [operands 0xB 64 0 64 0 0, operands 0xB 3 0 2 0 0, operands 0xB 3 0 65 0 0, operands 0x7 3 0 11 0 0,
      operands 0x19 3 0 11 0 0, operands 0xA 3 0 11 0 0].map (fun s => (faultIn (exec .divide s)).map (·.reason)) =
    [some .degRange, some .lenRange, some .lenRange, some .genTop, some .genHigh, some .genEven] := by decide
/-- OperationsFaultOnTheFirstFailingRow, COMPUTE_FCS: each row at its boundary. -/
theorem witness_compute_fcs_rows :
    [operands 0xB 64 0 0 0 0, operands 0xB 3 62 0 0 0, operands 0x7 3 61 0 0 0, operands 0x19 3 8 0 0 0,
      operands 0xA 3 8 0 0 0].map (fun s => (faultIn (exec .computeFcs s)).map (·.reason)) =
    [some .degRange, some .lenRange, some .genTop, some .genHigh, some .genEven] := by decide
/-- OperationsFaultOnTheFirstFailingRow, VERIFY: each row at its boundary. -/
theorem witness_verify_rows :
    [operands 0xB 64 0 0 0 0, operands 0xB 3 62 0 0 0, operands 0x7 3 61 0 0 0, operands 0x19 3 8 0 0 0,
      operands 0xA 3 8 0 0 0].map (fun s => (faultIn (exec .verify s)).map (·.reason)) =
    [some .degRange, some .lenRange, some .genTop, some .genHigh, some .genEven] := by decide
/-- IllegalWordSetsIllAlone: the least and the greatest illegal word. -/
theorem witness_illegal_word : 3 < (0x4 : Word).toNat ∧ 3 < (0xFFFFFFFFFFFFFFFF : Word).toNat := by decide
/-- HostWriteChangesItsSlotAlone: a command word and an illegal word. -/
theorem witness_host_write : decode 0x3 = .legal .verify ∧ decode 0x4 = .illegal := by decide
/-- OperationStraightAfterResetFaultsGenTop: each operation command. -/
theorem witness_operation_commands : Instr.divide ≠ .nop ∧ Instr.computeFcs ≠ .nop ∧ Instr.verify ≠ .nop := by decide
/-- StepRunsTheNextAccess: a command pending, another access pending, none pending. -/
theorem witness_step : ({ State.reset with pending := [.write 0 0x1, .reset] } : State).pending = .write 0 0x1 :: [.reset] ∧
    decode 0x1 = .legal .divide ∧
    ({ State.reset with pending := [.read 6] } : State).pending = .read 6 :: [] ∧ State.reset.pending = [] := by decide
/-- StepKeepsTheInvariant, and the first clause of FaultRecordIsSetByFaultsAlone: a step that goes on. -/
theorem witness_invariant_step : (frameOf 0xD6 0x7).Inv ∧
    ∃ t, step ((frameOf 0xD6 0x7).withFetchWord 64 2) = .next t ∧ t.done = true :=
  ⟨by decide, _, rfl, rfl⟩
/-- FaultRecordIsSetByFaultsAlone and OnlyOperationCommandsFault: a step that faults. -/
theorem witness_step_faults : ∃ f, step (State.reset.withFetchWord 64 1) = .fault f := ⟨_, rfl⟩
/-- CommandsLeaveTheOperandRegisters and ResultFitsTheDegree: each command goes on from some state. -/
theorem witness_commands_go_on : (∃ t, exec .nop State.reset = .next t) ∧
    (∃ t, exec .divide (frameOf 0x6B0 0) = .next t) ∧ (∃ t, exec .computeFcs (frameOf 0xD6 0) = .next t) ∧
    (∃ t, exec .verify (frameOf 0xD6 0x7) = .next t) :=
  ⟨⟨_, rfl⟩, ⟨_, rfl⟩, ⟨_, rfl⟩, ⟨_, rfl⟩⟩
/-- DoneAndResultPersist: DONE set, an access that is no reset and no operation command. -/
theorem witness_persist :
    let s : State := { State.reset with done := true, pending := [.write 0 0x4] }
    (∃ t, step s = .next t) ∧ s.pending.head? ≠ some .reset ∧ s.done = true ∧
      (∀ w : Word, s.pending.head? = some (.write 0 w) → w.toNat = 0 ∨ 3 < w.toNat) := by
  refine ⟨⟨_, rfl⟩, by decide, rfl, fun w h => ?_⟩
  cases h
  decide
/-- ResultDependsOnTheOperandsAlone, DIVIDE: states that differ in K, FCS, RESULT and DATA above TOTAL. -/
theorem witness_same_divide_operands :
    let s := operands 0xB 3 8 11 0x6B0 0
    let s' := { operands 0xB 3 9 11 0xFEB0 5 with result := 1, done := true }
    s'.params = s.params ∧ s'.gen = s.gen ∧ s'.deg = s.deg ∧ s'.total = s.total ∧
      s'.data.toNat % 2 ^ s.total.toNat = s.data.toNat % 2 ^ s.total.toNat ∧ ∃ t, exec .divide s = .next t :=
  ⟨rfl, rfl, rfl, rfl, by decide, _, rfl⟩
/-- ResultDependsOnTheOperandsAlone, the codec: states that differ in TOTAL, DATA above K and FCS above DEG. -/
theorem witness_same_codec_operands :
    let s := operands 0xB 3 8 11 0xD6 0x7
    let s' := operands 0xB 3 8 0 0x5D6 0xFF
    s'.params = s.params ∧ s'.gen = s.gen ∧ s'.deg = s.deg ∧ s'.k = s.k ∧
      s'.data.toNat % 2 ^ s.k.toNat = s.data.toNat % 2 ^ s.k.toNat ∧
      s'.fcs.toNat % 2 ^ s.deg.toNat = s.fcs.toNat % 2 ^ s.deg.toNat ∧
      (∃ t, exec .computeFcs s = .next t) ∧ ∃ t, exec .verify s = .next t :=
  ⟨rfl, rfl, rfl, rfl, by decide, by decide, ⟨_, rfl⟩, _, rfl⟩
/-- ResultReadAfterCommandIsItsResult: a command and a read of RESULT pending. -/
theorem witness_command_then_read :
    let s : State := { frameOf 0x6B0 0 with pending := [.write 0 0x1, .read 6] }
    s.pending = .write 0 0x1 :: .read 6 :: [] ∧ decode 0x1 = .legal .divide ∧ ∃ t, exec .divide s = .next t :=
  ⟨rfl, by decide, _, rfl⟩
/-- DriverSequencesReadTheOutcome: each of the driver's sequences pending in a ready state. -/
theorem witness_driver_sequences :
    let s : State := { frameOf 0 0 with pending := driverComputeFcs 0xD6 ++ [.reset] }
    let u : State := { frameOf 0 0 with pending := driverVerify 0xD7 0x7 ++ [] }
    s.CodecReady ∧ s.pending = driverComputeFcs 0xD6 ++ [.reset] ∧ u.CodecReady ∧
      u.pending = driverVerify 0xD7 0x7 ++ [] := by decide
/-- RunsStayObservable: a run of two accesses that goes on. -/
theorem witness_run :
    let s : State := { frameOf 0xD6 0 with pending := [.write 0 0x2, .read 6] }
    s.Observable ∧ s.Inv ∧ ∃ t, Host.Core.run core 2 s = .next t :=
  ⟨by decide, by decide, _, rfl⟩
/-- DivisionEndsWithTopBitClear, RemainderIsTheFinalRegister, MicroStepsKeepTheCongruence,
DivideIsPolynomialRemainder, DivisionEndsWithinTheStepBound, DivideIsLinear, DividerCornerCases: legal operands, at
n = r, n = r + 1, n = W with r = W - 1, and W = 1; and a cursor at most n. -/
theorem witness_divider_pre : DividerPre Params.default 11 0xB 3 ∧ DividerPre Params.default 3 0xB 3 ∧
    DividerPre Params.default 4 0xB 3 ∧ DividerPre Params.default 64 0x8000000000000001 63 ∧
    DividerPre narrowParams 1 1 0 ∧ (dividerInit 11 0x6B0 3).cur ≤ 11 := by decide
/-- DivisionEndsWithinTheStepBound, second clause: a micro-step that reduces. -/
theorem witness_reduction : (dividerInit 11 0x6B0 3).op.testBit 3 = true ∧
    dividerStep 64 11 (maskN 11 0x6B0) 0xB 3 (dividerInit 11 0x6B0 3) = .step ⟨0b0110, 4⟩ := by decide
/-- SplitDivisionEqualsSinglePass: cursors at both ends of the legal range and beyond them. -/
theorem witness_split : DividerPre Params.default 11 0xB 3 ∧ (3 + 1 ≤ 4 ∧ 4 ≤ 11) ∧ (3 + 1 ≤ 11 ∧ 11 ≤ 11) ∧
    ¬ (3 + 1 ≤ 3 ∧ 3 ≤ 11) ∧ ¬ (3 + 1 ≤ 12 ∧ 12 ≤ 11) := by decide
/-- UncheckedGeneratorWithoutTopBitHangs: each clause at its boundary. -/
theorem witness_hang : 3 ≤ Params.default.W - 1 ∧ 3 ≤ 11 ∧ 11 ≤ Params.default.W ∧ Nat.testBit 0x3 3 = false ∧
    2 ^ 3 ≤ 0x8 % 2 ^ 11 ∧ 0x7 % 2 ^ 11 < 2 ^ 3 := by decide
/-- DividerCornerCases: each clause of its own. -/
theorem witness_corner_cases : (DividerPre Params.default 4 0x1 0 ∧ 0 = 0) ∧
    (DividerPre Params.default 3 0xB 3 ∧ 3 = 3) ∧ (DividerPre Params.default 4 0xB 3 ∧ 4 = 3 + 1) ∧
    (DividerPre Params.default 11 0xB 3 ∧ 0x7 % 2 ^ 11 < 2 ^ 3) ∧
    (DividerPre Params.default 4 0xB 3 ∧ 0xB % 2 ^ 4 = 0xB ∧ 4 = 3 + 1) := by decide
/-- SyndromeIsFcsDifference, ErrorUndetectedExactlyWhenMultiple, CodecDegenerateOperands: legal operands, with r = 0
and with k = 0. -/
theorem witness_codec_pre : CodecPre Params.default 8 0xB 3 ∧ CodecPre Params.default 64 0x1 0 ∧
    CodecPre Params.default 0 0xB 3 := by decide
/-- SingleBitErrorIsDetected: the lowest FCS bit, the lowest data bit and the highest frame bit. -/
theorem witness_single_bit : CodecPre Params.default 8 0xB 3 ∧ 1 ≤ 3 ∧ Nat.testBit 0xB 0 = true ∧ 0 < 8 + 3 ∧
    3 < 8 + 3 ∧ 10 < 8 + 3 := by decide
/-- EvenGeneratorGivesEvenFcs: an even generator under Compute. -/
theorem witness_even_generator :
    let s : State := { operands 0xA 3 8 0 0xD6 0 with params := computeParams }
    s.params.evenGen = .compute ∧ s.deg.toNat ≤ s.params.W - 1 ∧ s.k.toNat + s.deg.toNat ≤ s.params.W ∧
      s.gen.toNat.testBit s.deg.toNat = true ∧ s.gen.toNat < 2 ^ (s.deg.toNat + 1) ∧
      s.gen.toNat.testBit 0 = false ∧ 1 ≤ s.deg.toNat := by decide
/-- SetcfgSetsTheFields, and LineAssemblesExactlyWhenWellFormed on SETCFG and FRAME: the largest and the least field. -/
theorem witness_setcfg : 127 ≤ 127 ∧ (0 : Nat) ≤ 127 := by decide
/-- LineAssemblesExactlyWhenWellFormed on WR and FRAME: the largest literal. -/
theorem witness_literal : 0xFFFFFFFFFFFFFFFF < 2 ^ 64 := by decide

end Sys2Proof.Machine
end

section
/-!
PROOFS. Statements of 10_state.md: the registers read back what was written (R21 to R24), SETCFG's fields (R22, R78),
the flags and RESULT persist (R25, R26), and an operation's result is a function of its operands (R23, R24, R75).
-/

namespace Sys2Proof.Machine

/-! ### Slots and command words -/

theorem slot_ofIndex_eq_cmd_iff {i : BitVec 3} : Slot.ofIndex i = .cmd ↔ i = 0 := by
  revert i
  decide

/-- A command word is its RSV above its OPC (R70). -/
theorem rsvField_append_opcField (w : Word) : rsvField w ++ opcField w = w := by
  have hcat : rsvField w ++ opcField w = w.extractLsb' 0 (60 + 4) :=
    BitVec.extractLsb'_append_extractLsb'_eq_extractLsb' rfl
  exact hcat.trans BitVec.extractLsb'_eq_self

/-- What a word that decodes to a command holds in its two fields (R71). -/
theorem decode_legal_fields {w : Word} {i : Instr} (h : decode w = .legal i) :
    rsvField w = 0 ∧ opcField w = opcOf i := by
  unfold decode at h
  split_ifs at h with hr h0 h1 h2 h3 <;> cases h
  · exact ⟨by simpa using hr, h0⟩
  · exact ⟨by simpa using hr, h1⟩
  · exact ⟨by simpa using hr, h2⟩
  · exact ⟨by simpa using hr, h3⟩

/-- The decoder accepts no word but a command's encoding (R73). -/
theorem encode_of_decode {w : Word} {i : Instr} (h : decode w = .legal i) : encode i = w := by
  obtain ⟨hr, ho⟩ := decode_legal_fields h
  rw [← rsvField_append_opcField w, hr, ho, encode]

/-- An operation command's word is one of 1, 2 and 3 (R72). -/
theorem decode_operation_bounds {w : Word} {i : Instr} (h : decode w = .legal i) (hi : i ≠ .nop) :
    1 ≤ w.toNat ∧ w.toNat ≤ 3 := by
  rw [← encode_of_decode h]
  cases i with
  | nop => exact absurd rfl hi
  | divide => decide
  | computeFcs => decide
  | verify => decide

/-! ### The fields of CFG -/

/-- The bits of CFG: DEG from bit 0, K from bit 8, TOTAL from bit 16; a bit beyond its field is 0 (R22). -/
theorem getLsbD_cfgWord (deg k total : Field) {i : Nat} (hi : i < 64) :
    (cfgWord deg k total).getLsbD i =
      if i < 8 then deg.getLsbD i else if i < 16 then k.getLsbD (i - 8) else total.getLsbD (i - 16) := by
  by_cases h8 : i < 8
  · simp [cfgWord, hi, h8, show i < 16 by omega]
  · have hdeg : deg.getLsbD i = false := BitVec.getLsbD_of_ge _ _ (by omega)
    by_cases h16 : i < 16
    · simp [cfgWord, hi, h8, h16, hdeg]
    · have hk : k.getLsbD (i - 8) = false := BitVec.getLsbD_of_ge _ _ (by omega)
      simp [cfgWord, hi, h8, h16, hdeg, hk]

/-- Storing a value in CFG's fields clears its reserved bits alone: the mask is CFG with all its fields ones (R22). -/
theorem cfgWord_of_fields (v : Word) : cfgWord (cfgDeg v) (cfgK v) (cfgTotal v) = v &&& 0x7F7F7F := by
  have mask : (0x7F7F7F : Word) = cfgWord (BitVec.allOnes 7) (BitVec.allOnes 7) (BitVec.allOnes 7) := by decide
  rw [mask]
  apply BitVec.eq_of_getLsbD_eq
  intro i hi
  simp only [BitVec.getLsbD_and, getLsbD_cfgWord _ _ _ hi, cfgDeg, cfgK, cfgTotal, BitVec.getLsbD_extractLsb',
    BitVec.getLsbD_allOnes]
  split_ifs with h8 h16
  · rw [Nat.zero_add, Bool.and_comm]
  · rw [Nat.add_sub_cancel' (by omega), Bool.and_comm]
  · rw [Nat.add_sub_cancel' (by omega), Bool.and_comm]

/-- Fields that do not overlap: SETCFG's number as a sum (R78). -/
theorem setcfgNumber_eq_sum {deg k : Nat} (hd : deg ≤ 127) (hk : k ≤ 127) (total : Nat) :
    (total <<< 16) ||| (k <<< 8) ||| deg = total * 2 ^ 16 + k * 2 ^ 8 + deg := by
  have low : (k <<< 8) ||| deg = k * 2 ^ 8 + deg := by
    rw [← Nat.shiftLeft_add_eq_or_of_lt (by omega), Nat.shiftLeft_eq]
  have hlow : k * 2 ^ 8 + deg < 2 ^ 16 := by omega
  rw [Nat.or_assoc, low, ← Nat.shiftLeft_add_eq_or_of_lt hlow, Nat.shiftLeft_eq, Nat.add_assoc]

/-- SETCFG with fields in 0..127 is one write to CFG of their sum at their places (R78). -/
theorem expandSetcfg_of_le {deg k total : Nat} (hd : deg ≤ 127) (hk : k ≤ 127) (ht : total ≤ 127) :
    expandSetcfg deg k total = .ok [.write 3 (BitVec.ofNat 64 (total * 2 ^ 16 + k * 2 ^ 8 + deg))] := by
  have hlit : literalWf (total * 2 ^ 16 + k * 2 ^ 8 + deg) = true := decide_eq_true (by omega)
  simp only [expandSetcfg, fieldWf, hd, hk, ht, decide_true, Bool.and_self, if_true, setcfgNumber_eq_sum hd hk,
    expandWrite, hlit, Slot.index]

/-- A write to CFG stores the numbers that stand at the fields' places, each to 7 bits (R22). -/
theorem setCfg_eq_ofNat (v : Word) (s : State) :
    s.setCfg v =
      { s with
        deg := BitVec.ofNat 7 v.toNat, k := BitVec.ofNat 7 (v.toNat / 2 ^ 8)
        total := BitVec.ofNat 7 (v.toNat / 2 ^ 16) } := by
  simp [State.setCfg, cfgDeg, cfgK, cfgTotal, BitVec.extractLsb', Nat.shiftRight_eq_div_pow]

/-- A field keeps a number modulo 2^7 (R22). -/
theorem field_ofNat_eq {a b : Nat} (h : a % 2 ^ 7 = b % 2 ^ 7) : BitVec.ofNat 7 a = BitVec.ofNat 7 b :=
  BitVec.eq_of_toNat_eq (by simpa only [BitVec.toNat_ofNat] using h)

/-- The three fields of a word written as their sum (R22). -/
theorem setCfg_of_sum {deg k total : Nat} (hd : deg ≤ 127) (hk : k ≤ 127) (ht : total ≤ 127) (s : State) :
    s.setCfg (BitVec.ofNat 64 (total * 2 ^ 16 + k * 2 ^ 8 + deg)) =
      { s with deg := BitVec.ofNat 7 deg, k := BitVec.ofNat 7 k, total := BitVec.ofNat 7 total } := by
  have hdeg : (total * 2 ^ 16 + k * 2 ^ 8 + deg) % 2 ^ 7 = deg % 2 ^ 7 := by omega
  have hk' : (total * 2 ^ 16 + k * 2 ^ 8 + deg) / 2 ^ 8 % 2 ^ 7 = k % 2 ^ 7 := by omega
  have htotal : (total * 2 ^ 16 + k * 2 ^ 8 + deg) / 2 ^ 16 % 2 ^ 7 = total % 2 ^ 7 := by omega
  rw [setCfg_eq_ofNat, BitVec.toNat_ofNat, Nat.mod_eq_of_lt (by omega), field_ofNat_eq hdeg, field_ofNat_eq hk',
    field_ofNat_eq htotal]

/-- Settles O13: each storing write sets its register, and CFG's fields are the value without its reserved bits. -/
theorem readReturnsTheLastWrite : Obligations.ReadReturnsTheLastWrite := by
  intro s v
  exact ⟨s.setGen v, s.setCfg v, s.setData v, s.setFcs v, rfl, rfl, rfl, cfgWord_of_fields v, rfl, rfl, rfl, rfl⟩

/-- Settles O48: SETCFG's one write carries the three numbers, and CFG stores them as its fields. -/
theorem setcfgSetsTheFields : Obligations.SetcfgSetsTheFields := by
  intro s deg k total hd hk ht
  exact ⟨_, expandSetcfg_of_le hd hk ht, congrArg Host.Outcome.next (setCfg_of_sum hd hk ht s)⟩

/-! ### What persists -/

/-- The flags DONE and ZERO and the register RESULT are the same in both states. -/
def SameOutcome (s t : State) : Prop := t.result = s.result ∧ t.done = s.done ∧ t.zero = s.zero

/-- A command word other than an operation's leaves RESULT, DONE and ZERO; an operation's sets DONE (R151 to R156). -/
theorem issueCommand_next_outcome {w : Word} {s t : State} (h : issueCommand w s = .next t) :
    SameOutcome s t ∨ (1 ≤ w.toNat ∧ w.toNat ≤ 3 ∧ t.done = true) := by
  rcases issueCommand_cases w s with ⟨i, hw, hi⟩ | ⟨-, hill⟩
  · rcases exec_next_cases (hi ▸ h) with ⟨-, rfl⟩ | ⟨hop, d, rfl⟩
    · exact .inl ⟨rfl, rfl, rfl⟩
    · obtain ⟨hlo, hhi⟩ := decode_operation_bounds hw hop
      exact .inr ⟨hlo, hhi, rfl⟩
  · cases hill.symm.trans h
    exact .inl ⟨rfl, rfl, rfl⟩

/-- An access that is no reset leaves RESULT, DONE and ZERO, or writes an operation's word to CMD and sets DONE. -/
theorem perform_next_outcome {a : Access} {s t : State} (h : perform a s = .next t) (ha : a ≠ .reset) :
    SameOutcome s t ∨ ∃ w, a = .write 0 w ∧ 1 ≤ w.toNat ∧ w.toNat ≤ 3 ∧ t.done = true := by
  rcases perform_cases a s with ⟨i, v, rfl, hi, hp⟩ | ⟨i, v, u, -, hp, hu⟩ | ⟨i, -, hp⟩ | ⟨hreset, -⟩
  · cases slot_ofIndex_eq_cmd_iff.mp hi
    exact (issueCommand_next_outcome (hp ▸ h)).imp_right fun hw => ⟨v, rfl, hw⟩
  · cases hp.symm.trans h
    rcases hu with rfl | rfl | rfl | rfl | rfl <;> exact .inl ⟨rfl, rfl, rfl⟩
  · cases hp.symm.trans h
    exact .inl ⟨rfl, rfl, rfl⟩
  · exact absurd hreset ha

/-- What a step that is no reset can do to RESULT, DONE and ZERO (R25, R26). -/
theorem step_next_outcome {s t : State} (h : step s = .next t) (hr : s.pending.head? ≠ some .reset) :
    SameOutcome s t ∨
      ∃ w, s.pending.head? = some (.write 0 w) ∧ 1 ≤ w.toNat ∧ w.toNat ≤ 3 ∧ t.done = true := by
  rcases step_cases s with ⟨-, hs⟩ | ⟨a, rest, hp, hs⟩
  · cases hs.symm.trans h
    exact .inl ⟨rfl, rfl, rfl⟩
  · have hhead : s.pending.head? = some a := by rw [hp]; rfl
    have ha : a ≠ .reset := fun hreset => hr (hreset ▸ hhead)
    rcases perform_next_outcome (hs ▸ h) ha with hsame | ⟨w, rfl, hw⟩
    · exact .inl hsame
    · exact .inr ⟨w, hhead, hw⟩

/-- Settles O23: a step without a reset keeps RESULT, DONE and ZERO, or completes an operation and sets DONE. -/
theorem doneAndResultPersist : Obligations.DoneAndResultPersist := by
  intro s t h hr
  rcases step_next_outcome h hr with hsame | ⟨w, hhead, hlo, hhi, hdone⟩
  · refine ⟨fun hd => ?_, fun _ => hsame⟩
    obtain ⟨-, hdone, -⟩ := hsame
    exact hdone.trans hd
  · refine ⟨fun _ => hdone, fun hw => ?_⟩
    have := hw w hhead
    omega

/-! ### What an operation reads -/

/-- Divide reads its stream below n only (R102). -/
theorem divide_congr {s s' n : Nat} (p : Params) (g r : Nat) (h : maskN n s' = maskN n s) :
    divide p s' n g r = divide p s n g r := by
  simp only [divide, dividerEnd, h]

/-- ComputeFCS reads its data below k only (R130). -/
theorem computeFcs_congr {data data' k : Nat} (p : Params) (g r : Nat) (h : maskN k data' = maskN k data) :
    computeFcs p data' k g r = computeFcs p data k g r := by
  simp only [computeFcs, fcsStream, h]

/-- Syndrome reads its data below k and its FCS below r only (R132). -/
theorem syndrome_congr {data data' k r fcs fcs' : Nat} (p : Params) (g : Nat)
    (hd : maskN k data' = maskN k data) (hf : maskN r fcs' = maskN r fcs) :
    syndrome p data' k g r fcs' = syndrome p data k g r fcs := by
  simp only [syndrome, syndromeStream, hd, hf]

/-- An operation that completes in one state completes in any other with the same division, and writes the same
RESULT and ZERO. -/
theorem finishOperation_same_result {i : Instr} {r r' : Except FaultReason Division} {s t : State} (s' : State)
    (hr : r' = r) (h : finishOperation i r s = .next t) :
    ∃ t', finishOperation i r' s' = .next t' ∧ t'.result = t.result ∧ t'.zero = t.zero := by
  obtain ⟨d, rfl, rfl⟩ := finishOperation_next h
  subst hr
  exact ⟨complete d s', rfl, rfl, rfl⟩

/-- Settles O24: each operation's division is the same in both states, because its streams are masked. -/
theorem resultDependsOnTheOperandsAlone : Obligations.ResultDependsOnTheOperandsAlone := by
  intro s s' t hp hg hr
  refine ⟨fun hn hd => finishOperation_same_result s' ?_,
    fun hk hd => ⟨finishOperation_same_result s' ?_, fun hf => finishOperation_same_result s' ?_⟩⟩
  · rw [hp, State.streamLengthOp, State.generatorOp, State.degreeOp, hn, hg, hr]
    exact divide_congr _ _ _ hd
  · rw [hp, State.dataWidthOp, State.generatorOp, State.degreeOp, hk, hg, hr]
    exact computeFcs_congr _ _ _ hd
  · rw [hp, State.dataWidthOp, State.generatorOp, State.degreeOp, hk, hg, hr]
    exact syndrome_congr _ _ hd hf

end Sys2Proof.Machine
end

section
/-!
PROOFS. Statements of 20_memory.md: the slot map (R50), HostWrite and HostRead at each slot (R52, R53), one access a
step (R54, R57), the read of RESULT after a command (R58) and the driver's sequences (R61).
-/

namespace Sys2Proof.Machine

/-! ### Slots -/

theorem slot_ofIndex_index (x : Slot) : Slot.ofIndex x.index = x := by
  cases x <;> rfl

theorem slot_index_ofIndex (i : BitVec 3) : (Slot.ofIndex i).index = i := by
  revert i
  decide

/-- Settles O4: the table by its eight rows, and the two directions of the bijection. -/
theorem slotIndicesNameTheSlots : Obligations.SlotIndicesNameTheSlots :=
  ⟨⟨rfl, rfl, rfl, rfl, rfl, rfl, rfl, rfl⟩, slot_index_ofIndex, slot_ofIndex_index⟩

/-! ### Writes -/

theorem issueCommand_of_legal {w : Word} {i : Instr} (h : decode w = .legal i) (s : State) :
    issueCommand w s = exec i s := by
  simp only [issueCommand, h]

theorem issueCommand_of_illegal {w : Word} (h : decode w = .illegal) (s : State) :
    issueCommand w s = execIllegal s := by
  simp only [issueCommand, h]

/-- Slot 0 is CMD: a write there issues the word written (R52, R150). -/
theorem hostWrite_cmd (w : Word) (s : State) : hostWrite 0 w s = issueCommand w s := rfl

/-- Settles O11: slot 0 issues the word, CFG's fields stand at their places, and the other slots store or do nothing. -/
theorem hostWriteChangesItsSlotAlone : Obligations.HostWriteChangesItsSlotAlone := by
  intro s v
  have hcfg : hostWrite 3 v s = .next (s.setCfg v) := rfl
  exact ⟨fun i h => (hostWrite_cmd v s).trans (issueCommand_of_legal h s),
    fun h => (hostWrite_cmd v s).trans (issueCommand_of_illegal h s),
    rfl, rfl, hcfg.trans (congrArg Host.Outcome.next (setCfg_eq_ofNat v s)), rfl, rfl, rfl, rfl⟩

/-! ### Reads -/

/-- STATUS as a number: ILL, ZERO and DONE at bits 2, 1 and 0 (R53). -/
theorem statusWord_toNat (done zero ill : Bool) :
    (statusWord done zero ill).toNat = ill.toNat * 4 + zero.toNat * 2 + done.toNat := by
  revert done zero ill
  decide

/-- A field moved up to its place in CFG loses no bit (R22). -/
theorem toNat_field_shiftLeft (x : Field) {m : Nat} (hm : m ≤ 16) :
    (x.setWidth 64 <<< m).toNat = x.toNat <<< m := by
  have hx : x.toNat * 2 ^ m < 2 ^ 7 * 2 ^ 16 :=
    Nat.mul_lt_mul_of_lt_of_le x.isLt (Nat.pow_le_pow_right two_pos hm) (Nat.two_pow_pos 16)
  rw [BitVec.toNat_shiftLeft, BitVec.toNat_setWidth_of_le (by omega), Nat.shiftLeft_eq,
    Nat.mod_eq_of_lt (hx.trans (by decide))]

/-- CFG as a number: TOTAL, K and DEG at bits 16, 8 and 0 (R53). -/
theorem cfgWord_toNat (deg k total : Field) :
    (cfgWord deg k total).toNat = total.toNat * 2 ^ 16 + k.toNat * 2 ^ 8 + deg.toNat := by
  have hdeg : deg.toNat ≤ 127 := Nat.le_of_lt_succ deg.isLt
  have hk : k.toNat ≤ 127 := Nat.le_of_lt_succ k.isLt
  rw [cfgWord, BitVec.toNat_or, BitVec.toNat_or, toNat_field_shiftLeft total le_rfl,
    toNat_field_shiftLeft k (by omega), BitVec.toNat_setWidth_of_le (by omega), setcfgNumber_eq_sum hdeg hk]

/-- Settles O12: STATUS and CFG as numbers; every other slot and the read access as the model gives them. -/
theorem hostReadReturnsTheSlot : Obligations.HostReadReturnsTheSlot := by
  intro s
  exact ⟨rfl, statusWord_toNat s.done s.zero s.ill, rfl, cfgWord_toNat s.deg s.k s.total, rfl, rfl, rfl, rfl,
    fun _ => rfl⟩

/-! ### Steps and runs -/

theorem step_of_pending {s : State} {a : Access} {rest : List Access} (h : s.pending = a :: rest) :
    step s = perform a (s.setPending rest) := by
  simp only [step, nextAccess, h]

theorem step_of_pending_nil {s : State} (h : s.pending = []) : step s = .next s := by
  simp only [step, nextAccess, h]

/-- A write of a command's word to CMD runs that command (R52, R150). -/
theorem perform_write_cmd {w : Word} {i : Instr} (h : decode w = .legal i) (s : State) :
    perform (.write 0 w) s = exec i s :=
  (hostWrite_cmd w s).trans (issueCommand_of_legal h s)

/-- The table's access for a 64-bit word is the write of that word to CMD. -/
theorem tableAccess_toNat (w : Word) : tableAccess 64 w.toNat = .write 0 w := by
  simp only [tableAccess, tableBits, Nat.mod_eq_of_lt w.isLt, BitVec.ofNat_toNat, BitVec.setWidth_eq, Slot.index]

theorem withFetchWord_toNat_pending (s : State) (w : Word) :
    (s.withFetchWord 64 w.toNat).pending = .write 0 w :: s.pending :=
  congrArg (· :: s.pending) (tableAccess_toNat w)

/-- Settles O17: a step performs the first pending access, and at CMD that access runs the command. -/
theorem stepRunsTheNextAccess : Obligations.StepRunsTheNextAccess := by
  refine ⟨fun s w i rest hp hw => ?_, fun s a rest hp => step_of_pending hp, fun s => step_of_pending_nil,
    fun s w i hw => ?_⟩
  · exact (step_of_pending hp).trans (perform_write_cmd hw _)
  · exact (step_of_pending (withFetchWord_toNat_pending s w)).trans (perform_write_cmd hw _)

/-- A run whose first access goes on is one step shorter from the state that access leaves. -/
theorem run_succ_of_pending {n : Nat} {s t : State} {a : Access} {rest : List Access}
    (hp : s.pending = a :: rest) (ha : perform a (s.setPending rest) = .next t) :
    Host.Core.run core (n + 1) s = Host.Core.run core n t := by
  have hs : core.step s = .next t := (step_of_pending hp).trans ha
  simp only [Host.Core.run, hs]

/-! ### A command and the read that follows it -/

/-- No command reads the accesses still to come, and each leaves them. -/
theorem exec_setPending {i : Instr} {s t : State} (h : exec i s = .next t) (as : List Access) :
    exec i (s.setPending as) = .next (t.setPending as) := by
  have finish : ∀ {j : Instr} {r : Except FaultReason Division}, finishOperation j r s = .next t →
      finishOperation j r (s.setPending as) = .next (t.setPending as) := by
    intro j r hr
    obtain ⟨d, rfl, rfl⟩ := finishOperation_next hr
    rfl
  cases i with
  | nop => cases h; rfl
  | divide => exact finish h
  | computeFcs => exact finish h
  | verify => exact finish h

theorem exec_next_returned {i : Instr} {s t : State} (h : exec i s = .next t) : t.returned = s.returned := by
  rcases exec_next_cases h with ⟨-, rfl⟩ | ⟨-, d, rfl⟩
  · rfl
  · rw [complete_eq]

/-- What a read returns does not depend on the accesses still to come. -/
theorem hostRead_setPending (x : BitVec 3) (s : State) (as : List Access) :
    hostRead x (s.setPending as) = hostRead x s := by
  unfold hostRead
  cases Slot.ofIndex x <;> rfl

/-- A command's word and a read, made one after the other: the host gets the slot as the command left it (R54, R58). -/
theorem run_command_then_read {s t : State} {w : Word} {i : Instr} {x : BitVec 3} {rest : List Access}
    (hp : s.pending = .write 0 w :: .read x :: rest) (hw : decode w = .legal i) (h : exec i s = .next t) :
    Host.Core.run core 2 s = .next ((t.setPending rest).giveToHost (hostRead x t)) := by
  have hcommand : perform (.write 0 w) (s.setPending (.read x :: rest)) = .next (t.setPending (.read x :: rest)) :=
    (perform_write_cmd hw _).trans (exec_setPending h _)
  have hread : perform (.read x) (t.setPending rest) = .next ((t.setPending rest).giveToHost (hostRead x t)) := by
    rw [perform, hostRead_setPending]
  exact (run_succ_of_pending hp hcommand).trans (run_succ_of_pending rfl hread)

/-- Settles O25: the read after the command hands RESULT, slot 6, as the command left it. -/
theorem resultReadAfterCommandIsItsResult : Obligations.ResultReadAfterCommandIsItsResult := by
  intro s t w i rest hp hw h
  refine ⟨_, run_command_then_read hp hw h, ?_, rfl⟩
  rw [← exec_next_returned h]
  rfl

/-! ### The driver's sequences -/

/-- COMPUTE_FCS on legal registers completes with the division of ComputeFCS (R153). -/
theorem exec_computeFcs_of_ready {s : State} (h : s.CodecReady) : ∃ d : Division,
    computeFcs s.params s.data.toNat s.k.toNat s.gen.toNat s.deg.toNat = .ok d ∧
      exec .computeFcs s = .next (complete d s) := by
  have hd := (computeFcs_of_pre s.data.toNat h).trans (divide_of_pre _ h.dividerPre)
  exact ⟨_, hd, congrArg (finishOperation .computeFcs · s) hd⟩

/-- VERIFY on legal registers completes with the syndrome's division, whose zero test is Verify's boolean (R154). -/
theorem exec_verify_of_ready {s : State} (h : s.CodecReady) : ∃ d : Division,
    verify s.params s.data.toNat s.k.toNat s.gen.toNat s.deg.toNat s.fcs.toNat = .ok (d.rem == 0) ∧
      exec .verify s = .next (complete d s) := by
  have hd := (syndrome_of_pre s.data.toNat s.fcs.toNat h).trans (divide_of_pre _ h.dividerPre)
  exact ⟨_, by simp only [verify, hd], congrArg (finishOperation .verify · s) hd⟩

/-- STATUS after a completed operation: DONE alone, or with ZERO when the remainder is 0 (R156). -/
theorem hostRead_status_complete (d : Division) (s : State) :
    hostRead 1 (complete d s) = if d.rem == 0 then 0x3 else 0x1 := by
  have hflags : ∀ zero : Bool, statusWord true zero false = if zero then 0x3 else 0x1 := by decide
  exact hflags (d.rem == 0)

/-- The driver's computeFCS hands ComputeFCS of the data written to the host (R61). -/
theorem run_driverComputeFcs {s : State} {data : Word} {rest : List Access} (h : s.CodecReady)
    (hp : s.pending = driverComputeFcs data ++ rest) : ∃ (d : Division) (t : State),
    computeFcs s.params data.toNat s.k.toNat s.gen.toNat s.deg.toNat = .ok d ∧
      Host.Core.run core 3 s = .next t ∧ t.returned = s.returned ++ [BitVec.ofNat 64 d.rem] ∧ t.pending = rest := by
  obtain ⟨d, hd, hx⟩ := exec_computeFcs_of_ready
    (s := (s.setPending (.write 0 0x2 :: .read 6 :: rest)).setData data) h
  have hrun := calc Host.Core.run core 3 s
    _ = Host.Core.run core 2 ((s.setPending (.write 0 0x2 :: .read 6 :: rest)).setData data) :=
      run_succ_of_pending hp rfl
    _ = _ := run_command_then_read rfl (by decide) hx
  exact ⟨d, _, hd, hrun, rfl, rfl⟩

/-- The driver's verify hands STATUS to the host: DONE, and ZERO as Verify of the frame written (R61, R196). -/
theorem run_driverVerify {s : State} {data fcs : Word} {rest : List Access} (h : s.CodecReady)
    (hp : s.pending = driverVerify data fcs ++ rest) : ∃ (accepted : Bool) (t : State),
    verify s.params data.toNat s.k.toNat s.gen.toNat s.deg.toNat fcs.toNat = .ok accepted ∧
      Host.Core.run core 4 s = .next t ∧ t.returned = s.returned ++ [if accepted then 0x3 else 0x1] ∧
      t.pending = rest := by
  obtain ⟨d, hd, hx⟩ := exec_verify_of_ready
    (s := ((s.setPending (.write 0 0x3 :: .read 1 :: rest)).setData data).setFcs fcs) h
  have hrun := calc Host.Core.run core 4 s
    _ = Host.Core.run core 3 ((s.setPending (.write 5 fcs :: .write 0 0x3 :: .read 1 :: rest)).setData data) :=
      run_succ_of_pending hp rfl
    _ = Host.Core.run core 2 (((s.setPending (.write 0 0x3 :: .read 1 :: rest)).setData data).setFcs fcs) :=
      run_succ_of_pending rfl rfl
    _ = _ := run_command_then_read rfl (by decide) hx
  exact ⟨d.rem == 0, _, hd, hrun, congrArg (s.returned ++ [·]) (hostRead_status_complete d _), rfl⟩

/-- Settles O26: the writes leave the registers of R134, so the operation completes and the read returns its outcome. -/
theorem driverSequencesReadTheOutcome : Obligations.DriverSequencesReadTheOutcome :=
  fun _ _ _ _ h => ⟨run_driverComputeFcs h, run_driverVerify h⟩

end Sys2Proof.Machine
end

section
/-!
PROOFS. Statements on encodings: command words (R70 to R73) and the lines of a host program (R77, R78).
-/

namespace Sys2Proof.Machine

/-! ### Command words -/

theorem decode_encode (i : Instr) : decode (encode i) = .legal i := by
  cases i <;> rfl

theorem decode_eq_legal_iff {w : Word} {i : Instr} : decode w = .legal i ↔ encode i = w :=
  ⟨encode_of_decode, fun h => h ▸ decode_encode i⟩

/-- RSV is 0, so a command word's number is its OPC (R70). -/
theorem encode_toNat (i : Instr) : (encode i).toNat = (opcOf i).toNat := by
  exact (BitVec.toNat_append (0 : BitVec 60) (opcOf i)).trans (by simp)

theorem decode_eq_legal_iff_toNat {w : Word} {i : Instr} : decode w = .legal i ↔ w.toNat = (opcOf i).toNat := by
  rw [decode_eq_legal_iff, ← BitVec.toNat_inj, encode_toNat, eq_comm]

/-- The assigned operation codes are the numbers 0 to 3 (R72). -/
theorem exists_opcOf_toNat_iff {n : Nat} : (∃ i, n = (opcOf i).toNat) ↔ n ≤ 3 := by
  constructor
  · rintro ⟨i, rfl⟩
    cases i <;> decide
  · intro h
    interval_cases n
    · exact ⟨.nop, rfl⟩
    · exact ⟨.divide, rfl⟩
    · exact ⟨.computeFcs, rfl⟩
    · exact ⟨.verify, rfl⟩

theorem exists_decode_legal_iff {w : Word} : (∃ i, decode w = .legal i) ↔ w.toNat ≤ 3 := by
  simp only [decode_eq_legal_iff_toNat, exists_opcOf_toNat_iff]

theorem decode_eq_illegal_iff {w : Word} : decode w = .illegal ↔ 3 < w.toNat := by
  rw [← not_le, ← exists_decode_legal_iff]
  cases decode w <;> simp

theorem commandWordWf_iff {w : Word} : commandWordWf w = true ↔ w.toNat ≤ 3 := by
  simp only [commandWordWf, rsvIsZero, opcIsAssigned, Bool.and_eq_true, beq_iff_eq, decide_eq_true_eq]
  omega

/-- A command has no field that could be out of range (R70). -/
@[simp] theorem instr_wf (i : Instr) : i.wf = true := by
  cases i <;> rfl

/-- Settles O2: a word decodes to a command exactly when its number is that command's OPC, and the four codes are
0 to 3. -/
theorem everyWordDecodesAsTheOpcodeMap : Obligations.EveryWordDecodesAsTheOpcodeMap := by
  intro w
  exact ⟨decode_eq_legal_iff_toNat, decode_eq_legal_iff_toNat, decode_eq_legal_iff_toNat, decode_eq_legal_iff_toNat,
    decode_eq_illegal_iff⟩

/-- Settles O3: decoding inverts encoding, and both the words it accepts and the well-formed ones are those up to 3. -/
theorem decoderAcceptsExactlyTheEncodings : Obligations.DecoderAcceptsExactlyTheEncodings := by
  intro w i
  refine ⟨decode_eq_legal_iff, ?_⟩
  simp only [instr_wf, true_and, commandWordWf_iff, exists_decode_legal_iff]

/-- Settles O1: the four words are the encodings, and the neighbours are above 3. -/
theorem sampleCommandWordsDecode : Obligations.SampleCommandWordsDecode :=
  ⟨decode_encode .nop, decode_encode .divide, decode_encode .computeFcs, decode_encode .verify,
    decode_eq_illegal_iff.mpr (by decide), decode_eq_illegal_iff.mpr (by decide),
    decode_eq_illegal_iff.mpr (by decide), decode_eq_illegal_iff.mpr (by decide)⟩

/-! ### Lines of a host program -/

theorem literalWf_iff {v : Nat} : literalWf v = true ↔ v < 2 ^ 64 := decide_eq_true_iff

theorem fieldWf_iff {v : Nat} : fieldWf v = true ↔ v ≤ 127 := decide_eq_true_iff

theorem expandWrite_of_lt {v : Nat} (hv : v < 2 ^ 64) (x : Slot) :
    expandWrite x v = .ok [.write x.index (BitVec.ofNat 64 v)] :=
  if_pos (literalWf_iff.mpr hv)

theorem expandWrite_ok_iff {x : Slot} {v : Nat} : (∃ as, expandWrite x v = .ok as) ↔ literalWf v = true := by
  by_cases h : literalWf v = true
  · simp [expandWrite, h]
  · simp [expandWrite, h]

/-- SETCFG has no error but a field out of range: three fields in 0..127 make a number that fits (R78). -/
theorem expandSetcfg_ok_iff {deg k total : Nat} :
    (∃ as, expandSetcfg deg k total = .ok as) ↔ (fieldWf deg && fieldWf k && fieldWf total) = true := by
  constructor
  · intro ⟨as, h⟩
    by_contra hwf
    simp [expandSetcfg, hwf] at h
  · intro hwf
    simp only [Bool.and_eq_true, fieldWf_iff] at hwf
    obtain ⟨⟨hd, hk⟩, ht⟩ := hwf
    exact ⟨_, expandSetcfg_of_le hd hk ht⟩

theorem andThen_ok_iff {a b : Except AsmError (List Access)} :
    (∃ as, andThen a b = .ok as) ↔ (∃ xs, a = .ok xs) ∧ ∃ ys, b = .ok ys := by
  cases a with
  | error e => simp [andThen]
  | ok xs => cases b <;> simp [andThen]

theorem expandLine_ok_iff (l : Line) : (∃ as, expandLine l = .ok as) ↔ l.wf = true := by
  cases l with
  | wr x v => simp [expandLine, expandWrite_ok_iff, Line.wf, Line.literalsWf, Line.fieldsWf]
  | rd x => simp [expandLine, Line.wf, Line.literalsWf, Line.fieldsWf]
  | reset => simp [expandLine, Line.wf, Line.literalsWf, Line.fieldsWf]
  | command i => simp [expandLine, Line.wf, Line.literalsWf, Line.fieldsWf]
  | setcfg deg k total => simp [expandLine, expandSetcfg_ok_iff, Line.wf, Line.literalsWf, Line.fieldsWf]
  | frame g deg k data =>
    have total_zero : fieldWf 0 = true := rfl
    simp only [expandLine, andThen_ok_iff, expandWrite_ok_iff, expandSetcfg_ok_iff, total_zero, Line.wf,
      Line.literalsWf, Line.fieldsWf, Bool.and_eq_true, and_true]
    tauto

/-- FRAME with its literals and fields in range is WR GEN, SETCFG with TOTAL = 0 and WR DATA (R78). -/
theorem expandFrame_of_le {g deg k data : Nat} (hg : g < 2 ^ 64) (hd : deg ≤ 127) (hk : k ≤ 127)
    (hdata : data < 2 ^ 64) :
    expandLine (.frame g deg k data) =
      .ok [.write 2 (BitVec.ofNat 64 g), .write 3 (BitVec.ofNat 64 (k * 2 ^ 8 + deg)),
        .write 4 (BitVec.ofNat 64 data)] := by
  have hcfg := expandSetcfg_of_le hd hk (Nat.zero_le 127)
  rw [Nat.zero_mul, Nat.zero_add] at hcfg
  simp only [expandLine, expandWrite_of_lt hg, hcfg, expandWrite_of_lt hdata]
  rfl

/-- Settles O47: the parts of a line assemble exactly within their bounds, and each kind of line is the concatenation
of its parts. -/
theorem lineAssemblesExactlyWhenWellFormed : Obligations.LineAssemblesExactlyWhenWellFormed :=
  ⟨expandLine_ok_iff, fun x _ hv => expandWrite_of_lt hv x, fun _ => rfl, rfl, rfl, rfl, rfl, rfl,
    fun _ _ _ hd hk ht => expandSetcfg_of_le hd hk ht,
    fun _ _ _ _ hg hd hk hdata => expandFrame_of_le hg hd hk hdata⟩

/-- Settles O49, by running the assembler on the six samples (in the kernel, which compares characters faster). -/
theorem sampleProgramTextAssembles : Obligations.SampleProgramTextAssembles := by
  refine ⟨?reads, ?writes, ?commands, ?setcfgAndFrame, ?literalTooWide, ?fieldOutOfRange⟩
  case reads => decide +kernel
  case writes => decide +kernel
  case commands => decide +kernel
  case setcfgAndFrame => decide +kernel
  case literalTooWide => decide +kernel
  case fieldOutOfRange => decide +kernel

end Sys2Proof.Machine
end

section
/-!
PROOFS. Statements of 40_divider.md on how a division ends (R104, R105, R110).
-/

namespace Sys2Proof.Machine

variable {W n s g r : Nat} {d d' : Divider}

/-! ### One micro-step -/

/-- A micro-step that goes on is a reduction or a bring-down (R104). -/
theorem dividerStep_step_cases (h : dividerStep W n s g r d = .step d') :
    (d.op.testBit r = true ∧ d' = { op := d.op ^^^ g, cur := d.cur }) ∨
    (d.op.testBit r = false ∧ d.cur < n ∧
      d' = { op := maskN W ((d.op <<< 1) ||| streamBit n s d.cur), cur := d.cur + 1 }) := by
  rcases dividerStep_cases W n s g r d with ⟨hbit, hs⟩ | ⟨hbit, hcur, hs⟩ | ⟨-, -, hs⟩ <;> cases hs.symm.trans h
  · exact .inl ⟨hbit, rfl⟩
  · exact .inr ⟨hbit, hcur, rfl⟩

/-- A micro-step that ends the division answers the working register, with its top bit clear and no stream bit left
(R105). -/
theorem dividerStep_eq_finished_iff {op : Nat} :
    dividerStep W n s g r d = .finished op ↔ op = d.op ∧ d.op.testBit r = false ∧ n ≤ d.cur := by
  rcases dividerStep_cases W n s g r d with ⟨hbit, hs⟩ | ⟨-, hcur, hs⟩ | ⟨hbit, hcur, hs⟩
  · simp [hs, hbit]
  · simp [hs, hcur]
  · simp [hs, hbit, hcur, eq_comm]

theorem dividerStep_keeps_cur_le (hcur : d.cur ≤ n) (h : dividerStep W n s g r d = .step d') : d'.cur ≤ n := by
  rcases dividerStep_step_cases h with ⟨-, rfl⟩ | ⟨-, hlt, rfl⟩
  · exact hcur
  · exact hlt

/-- A generator with its top bit set clears the register's top bit when it is reduced (R110). -/
theorem testBit_reduce {op : Nat} (hg : g.testBit r = true) (hop : op.testBit r = true) :
    (op ^^^ g).testBit r = false := by
  rw [Nat.testBit_xor, hop, hg, Bool.xor_self]

/-! ### The work left to a division -/

/-- A bound on the micro-steps still to come: a bring-down and a reduction for each stream bit left, and a reduction
now if the register's top bit is set (R110). -/
def dividerWork (n r : Nat) (d : Divider) : Nat := 2 * (n - d.cur) + (d.op.testBit r).toNat

/-- With a generator whose top bit is set, every micro-step that goes on leaves less work (R110). -/
theorem dividerStep_work_lt (hg : g.testBit r = true) (h : dividerStep W n s g r d = .step d') :
    dividerWork n r d' < dividerWork n r d := by
  rcases dividerStep_step_cases h with ⟨hbit, rfl⟩ | ⟨hbit, hcur, rfl⟩
  · simp [dividerWork, testBit_reduce hg hbit, hbit]
  · have hnext := Bool.toNat_le ((maskN W ((d.op <<< 1) ||| streamBit n s d.cur)).testBit r)
    simp only [dividerWork, hbit, Bool.toNat_false]
    omega

@[simp] theorem dividerInit_cur (n s r : Nat) : (dividerInit n s r).cur = min n (r + 1) := by
  by_cases h : r + 1 ≤ n
  · simp [dividerInit, h]
  · simp [dividerInit, h, Nat.le_of_not_le h]

/-- The run's length covers the work of the initial window (R110). -/
theorem dividerInit_work_le (n s r : Nat) : dividerWork n r (dividerInit n s r) ≤ dividerFuel n r := by
  simp only [dividerWork, dividerFuel, dividerInit_cur]
  exact Nat.add_le_add_left (Bool.toNat_le _) _

/-! ### The end of a division -/

/-- A run at least as long as its work stands where the micro-step answers Done. -/
theorem dividerRun_finished (hg : g.testBit r = true) {fuel : Nat} (hfuel : dividerWork n r d ≤ fuel) :
    dividerStep W n s g r (dividerRun W n s g r fuel d) = .finished (dividerRun W n s g r fuel d).op := by
  induction fuel generalizing d with
  | zero =>
    cases hs : dividerStep W n s g r d with
    | step d' => exact absurd (dividerStep_work_lt hg hs) (by omega)
    | finished op => rw [dividerRun, hs, (dividerStep_eq_finished_iff.mp hs).1]
  | succ fuel ih =>
    cases hs : dividerStep W n s g r d with
    | step d' =>
      have hless := dividerStep_work_lt hg hs
      simpa only [dividerRun, hs] using ih (d := d') (by omega)
    | finished op => simp only [dividerRun, hs, (dividerStep_eq_finished_iff.mp hs).1]

theorem dividerEnd_finished (hg : g.testBit r = true) :
    dividerStep W n (maskN n s) g r (dividerEnd W n s g r) = .finished (dividerEnd W n s g r).op :=
  dividerRun_finished hg (dividerInit_work_le n (maskN n s) r)

/-- A run that begins within the stream stays within it. -/
theorem dividerRun_cur_le {fuel : Nat} (hcur : d.cur ≤ n) : (dividerRun W n s g r fuel d).cur ≤ n :=
  dividerRun_keeps (P := fun e => e.cur ≤ n) (fun _ _ => dividerStep_keeps_cur_le) fuel d hcur

theorem dividerEnd_cur_le : (dividerEnd W n s g r).cur ≤ n :=
  dividerRun_cur_le (by simp)

/-- Within the stream a micro-step answers Done exactly at its end with the top bit clear (R105). -/
theorem exists_finished_iff_of_cur_le (hcur : d.cur ≤ n) :
    (∃ op, dividerStep W n s g r d = .finished op) ↔ d.op.testBit r = false ∧ d.cur = n := by
  simp only [dividerStep_eq_finished_iff, exists_eq_left, hcur.ge_iff_eq]

/-- Settles O28: every micro-step leaves less work and the run is as long as the work at its start, so it stands where
Done is answered, which within the stream is op[r] = 0 and cur = n. -/
theorem divisionEndsWithTopBitClear : Obligations.DivisionEndsWithTopBitClear := by
  refine ⟨fun p s n g r hpre => ?_, fun _ _ _ _ _ _ hcur => exists_finished_iff_of_cur_le hcur⟩
  obtain ⟨-, -, hg, -, -⟩ := hpre
  have hdone := dividerEnd_finished (W := p.W) (n := n) (s := s) hg
  obtain ⟨hbit, hcur⟩ := (exists_finished_iff_of_cur_le dividerEnd_cur_le).mp ⟨_, hdone⟩
  exact ⟨hbit, hcur, hdone⟩

end Sys2Proof.Machine
end

section
/-!
PROOFS. Statements of 42_commands.md: the words without an operation (R151, R155), what every command leaves unchanged
(R156), and the three operations with their flags, corner cases and faults (R152 to R154). The corner cases follow from
what a division computes, the remainder of polynomial division (40_divider.md section 3 'Algebraic meaning').
-/

namespace Sys2Proof.Machine

/-! ### NOP, the illegal words, and what no command writes -/

/-- Settles O5: NOP is the word 0, and its meaning is the one write to ILL. -/
theorem nopClearsIllAlone : Obligations.NopClearsIllAlone :=
  ⟨rfl, fun _ => rfl⟩

/-- Settles O10: a word above 3 decodes to Illegal, and a write of it to CMD runs ExecIllegal. -/
theorem illegalWordSetsIllAlone : Obligations.IllegalWordSetsIllAlone := by
  intro s w hw
  exact (hostWrite_cmd w s).trans (issueCommand_of_illegal (decode_eq_illegal_iff.mpr hw) s)

/-- Settles O22: a command that goes on is NOP, which clears ILL, or an operation, which completes. -/
theorem commandsLeaveTheOperandRegisters : Obligations.CommandsLeaveTheOperandRegisters := by
  intro i s t h
  rcases exec_next_cases h with ⟨rfl, rfl⟩ | ⟨hop, d, rfl⟩
  · simp
  · simp [complete_eq, hop]

/-! ### The polynomial of a number -/

theorem coeff_poly (v i : Nat) : (Gf2.poly v).coeff i = if v.testBit i then 1 else 0 := by
  have hterm : ∀ j, (if v.testBit j then (Polynomial.X : Polynomial (ZMod 2)) ^ j else 0).coeff i =
      if i = j then (if v.testBit i then 1 else 0) else 0 := by
    intro j
    by_cases hij : i = j
    · subst hij
      cases v.testBit i <;> simp
    · cases v.testBit j <;> simp [Polynomial.coeff_X_pow, hij]
  have hsize : i ∉ Finset.range v.size → v.testBit i = false := fun hi =>
    Nat.testBit_lt_two_pow (Nat.size_le.mp (by simpa using hi))
  simp only [Gf2.poly, Polynomial.finsetSum_coeff, hterm, Finset.sum_ite_eq]
  by_cases hi : i ∈ Finset.range v.size
  · rw [if_pos hi]
  · simp [hi, hsize hi]

@[simp] theorem poly_zero : Gf2.poly 0 = 0 := by
  ext i
  simp [coeff_poly]

/-- Addition of polynomials over GF(2) is XOR of numbers (R13). -/
theorem poly_xor (a b : Nat) : Gf2.poly (a ^^^ b) = Gf2.poly a + Gf2.poly b := by
  ext i
  rw [Polynomial.coeff_add, coeff_poly, coeff_poly, coeff_poly, Nat.testBit_xor]
  cases a.testBit i <;> cases b.testBit i <;> decide

/-- A shift by one place is multiplication by x (R13). -/
theorem poly_shiftLeft_one (a : Nat) : Gf2.poly (a <<< 1) = Polynomial.X * Gf2.poly a := by
  ext i
  cases i with
  | zero => simp [coeff_poly]
  | succ i => simp [coeff_poly, Nat.testBit_shiftLeft]

theorem poly_injective : Function.Injective Gf2.poly := by
  intro a b h
  apply Nat.eq_of_testBit_eq
  intro i
  have hi := congrArg (Polynomial.coeff · i) h
  simp only [coeff_poly] at hi
  cases ha : a.testBit i <;> cases hb : b.testBit i <;> simp_all

theorem coeff_poly_of_lt {v m i : Nat} (h : v < 2 ^ m) (hi : m ≤ i) : (Gf2.poly v).coeff i = 0 := by
  simp [coeff_poly, Nat.testBit_lt_two_pow (h.trans_le (Nat.pow_le_pow_right two_pos hi))]

theorem degree_poly_lt {v m : Nat} (h : v < 2 ^ m) : (Gf2.poly v).degree < m :=
  (Polynomial.degree_lt_iff_coeff_zero _ m).mpr fun _ => coeff_poly_of_lt h

/-- A generator of degree r has bit r set and none above it, so its polynomial has degree r (R101). -/
theorem GeneratorPre.degree_poly {p : Params} {g r : Nat} (h : GeneratorPre p g r) : (Gf2.poly g).degree = r := by
  obtain ⟨htop, hhigh, -⟩ := h
  refine le_antisymm ((Polynomial.degree_le_iff_coeff_zero _ _).mpr fun i hi => ?_)
    (Polynomial.le_degree_of_ne_zero (by simp [coeff_poly, htop]))
  exact coeff_poly_of_lt hhigh (Nat.cast_lt.mp hi)

theorem GeneratorPre.monic_poly {p : Params} {g r : Nat} (h : GeneratorPre p g r) : (Gf2.poly g).Monic := by
  have hdegree := h.degree_poly
  obtain ⟨htop, -, -⟩ := h
  exact Polynomial.monic_of_degree_le r hdegree.le (by simp [coeff_poly, htop])

/-! ### Remainders -/

namespace Gf2.IsRemainder

variable {p : Params} {a b g r x y : Nat}

theorem unique (hx : Gf2.IsRemainder a g r x) (hy : Gf2.IsRemainder a g r y) : x = y := by
  obtain ⟨-, hx⟩ := hx
  obtain ⟨-, hy⟩ := hy
  exact poly_injective (hx.trans hy.symm)

theorem xor (hx : Gf2.IsRemainder a g r x) (hy : Gf2.IsRemainder b g r y) :
    Gf2.IsRemainder (a ^^^ b) g r (x ^^^ y) := by
  obtain ⟨hxlt, hx⟩ := hx
  obtain ⟨hylt, hy⟩ := hy
  exact ⟨Nat.xor_lt_two_pow hxlt hylt, by rw [poly_xor, poly_xor, Polynomial.add_modByMonic, hx, hy]⟩

theorem eq_zero_of_degree_zero (h : Gf2.IsRemainder a g r x) (hr : r = 0) : x = 0 := by
  obtain ⟨hlt, -⟩ := h
  subst hr
  exact Nat.lt_one_iff.mp hlt

/-- A number of r bits that differs from `a` by a multiple of the generator is the remainder of `a`. -/
theorem of_dvd (hg : GeneratorPre p g r) (hx : x < 2 ^ r) (hdvd : Gf2.poly g ∣ Gf2.poly (x ^^^ a)) :
    Gf2.IsRemainder a g r x := by
  have hself : Gf2.poly x %ₘ Gf2.poly g = Gf2.poly x :=
    (Polynomial.modByMonic_eq_self_iff hg.monic_poly).mpr (hg.degree_poly ▸ degree_poly_lt hx)
  rw [poly_xor, ← CharTwo.sub_eq_add] at hdvd
  exact ⟨hx, hself.symm.trans (Polynomial.modByMonic_eq_of_dvd_sub hg.monic_poly hdvd)⟩

/-- A number of at most r bits is its own remainder. -/
theorem self (hg : GeneratorPre p g r) (ha : a < 2 ^ r) : Gf2.IsRemainder a g r a :=
  of_dvd hg ha (by simp)

theorem eq_of_lt (h : Gf2.IsRemainder a g r x) (hg : GeneratorPre p g r) (ha : a < 2 ^ r) : x = a :=
  h.unique (self hg ha)

end Gf2.IsRemainder

/-! ### What a division computes -/

/-- Between micro-steps the register holds at most r + 1 bits and differs from the stream bits read so far by a
multiple of the generator (40_divider.md section 3 'Invariants'). -/
def CongruentToBitsRead (n s g r : Nat) (d : Divider) : Prop :=
  d.op < 2 ^ (r + 1) ∧ d.cur ≤ n ∧ Gf2.poly g ∣ Gf2.poly (d.op ^^^ s / 2 ^ (n - d.cur))

/-- A register whose top bit is clear holds r bits. -/
theorem lt_two_pow_of_testBit_false {op r : Nat} (hop : op < 2 ^ (r + 1)) (hbit : op.testBit r = false) :
    op < 2 ^ r := by
  refine Nat.lt_pow_two_of_testBit op fun i hi => ?_
  rcases hi.eq_or_lt with rfl | hlt
  · exact hbit
  · exact Nat.testBit_lt_two_pow (hop.trans_le (Nat.pow_le_pow_right two_pos hlt))

theorem testBit_streamBit (n s j i : Nat) :
    (streamBit n s j).testBit i = (decide (i < 1) && s.testBit (n - 1 - j + i)) := by
  rw [streamBit, slice, Nat.testBit_mod_two_pow, Nat.testBit_shiftRight]

/-- Bringing a stream bit down shifts what the register and the stream bits read differ by. -/
theorem bringDown_xor_bitsRead {n cur : Nat} (op s : Nat) (hcur : cur < n) :
    ((op <<< 1) ||| streamBit n s cur) ^^^ s / 2 ^ (n - (cur + 1)) = (op ^^^ s / 2 ^ (n - cur)) <<< 1 := by
  apply Nat.eq_of_testBit_eq
  intro i
  simp only [Nat.testBit_xor, Nat.testBit_or, Nat.testBit_shiftLeft, Nat.testBit_div_two_pow, testBit_streamBit]
  cases i with
  | zero => simp [show n - (cur + 1) = n - 1 - cur by omega]
  | succ i => simp [show i + 1 + (n - (cur + 1)) = i + (n - cur) by omega]

theorem bringDown_lt {op r n s cur : Nat} (hop : op < 2 ^ r) :
    (op <<< 1) ||| streamBit n s cur < 2 ^ (r + 1) := by
  refine Nat.or_lt_two_pow ?_ ((Nat.mod_lt _ two_pos).trans_le ?_)
  · rw [Nat.shiftLeft_eq, pow_succ]
    omega
  · exact Nat.pow_le_pow_right two_pos (Nat.le_add_left 1 r)

theorem dividerInit_congruent {n s r : Nat} (g : Nat) (hs : s < 2 ^ n) (hr : r ≤ n) :
    CongruentToBitsRead n s g r (dividerInit n s r) := by
  by_cases hn : r + 1 ≤ n
  · have hwindow : slice (r + 1) (n - (r + 1)) s = s / 2 ^ (n - (r + 1)) := by
      rw [slice, Nat.shiftRight_eq_div_pow, Nat.mod_eq_of_lt]
      rwa [Nat.div_lt_iff_lt_mul (Nat.two_pow_pos _), ← pow_add, Nat.add_sub_cancel' hn]
    rw [dividerInit, if_pos hn]
    exact ⟨maskN_lt _ _, hn, by simp [hwindow]⟩
  · rw [dividerInit, if_neg hn]
    exact ⟨hs.trans_le (Nat.pow_le_pow_right two_pos (by omega)), le_rfl, by simp⟩

theorem dividerStep_keeps_congruent {W n s g r : Nat} (hW : r + 1 ≤ W) (hg : g < 2 ^ (r + 1)) (d d' : Divider)
    (h : CongruentToBitsRead n s g r d) (hs : dividerStep W n s g r d = .step d') : CongruentToBitsRead n s g r d' := by
  obtain ⟨hop, hcur, hdvd⟩ := h
  rcases dividerStep_step_cases hs with ⟨-, rfl⟩ | ⟨hbit, hlt, rfl⟩
  · refine ⟨Nat.xor_lt_two_pow hop hg, hcur, ?_⟩
    rw [Nat.xor_right_comm, poly_xor]
    exact dvd_add hdvd dvd_rfl
  · have hnew := bringDown_lt (n := n) (s := s) (cur := d.cur) (lt_two_pow_of_testBit_false hop hbit)
    have hmask := maskN_of_lt (hnew.trans_le (Nat.pow_le_pow_right two_pos hW))
    rw [hmask]
    refine ⟨hnew, hlt, ?_⟩
    rw [bringDown_xor_bitsRead d.op s hlt, poly_shiftLeft_one]
    exact hdvd.mul_left _

theorem dividerEnd_congruent {p : Params} {n g r : Nat} (s : Nat) (h : DividerPre p n g r) :
    CongruentToBitsRead n (maskN n s) g r (dividerEnd p.W n s g r) := by
  obtain ⟨hr, ⟨hrn, -⟩, -, hg, -⟩ := h
  have hW : r + 1 ≤ p.W := by have := p.one_le_W; omega
  exact dividerRun_keeps (dividerStep_keeps_congruent hW hg) _ _ (dividerInit_congruent g (maskN_lt n s) hrn)

theorem DividerPre.generatorPre {p : Params} {n g r : Nat} (h : DividerPre p n g r) : GeneratorPre p g r := h.2.2

/-- On legal operands Divide answers the remainder of polynomial division of the masked stream (R107, R109). -/
theorem divide_ok {p : Params} {n g r : Nat} (s : Nat) (h : DividerPre p n g r) :
    ∃ d, divide p s n g r = .ok d ∧ Gf2.IsRemainder (maskN n s) g r d.rem := by
  obtain ⟨hends, -⟩ := divisionEndsWithTopBitClear
  obtain ⟨hbit, hcur, -⟩ := hends p s n g r h
  obtain ⟨hop, -, hdvd⟩ := dividerEnd_congruent s h
  have hlt := lt_two_pow_of_testBit_false hop hbit
  rw [hcur, Nat.sub_self, pow_zero, Nat.div_one] at hdvd
  refine ⟨_, divide_of_pre s h, ?_⟩
  rw [maskN_of_lt hlt]
  exact .of_dvd h.generatorPre hlt hdvd

/-! ### What the codec computes -/

theorem fcsStream_lt (data k r : Nat) : fcsStream data k r < 2 ^ (k + r) := by
  rw [fcsStream, concat, Nat.or_zero, Nat.shiftLeft_eq, pow_add]
  exact Nat.mul_lt_mul_of_pos_right (maskN_lt k data) (Nat.two_pow_pos r)

/-- The data bits and the FCS bits of a frame do not overlap, so the frame is their XOR (R130, R132). -/
theorem syndromeStream_eq_xor (data k r fcs : Nat) :
    syndromeStream data k r fcs = fcsStream data k r ^^^ maskN r fcs := by
  apply Nat.eq_of_testBit_eq
  intro i
  rcases Nat.lt_or_ge i r with hi | hi
  · simp [syndromeStream, fcsStream, concat, Nat.testBit_shiftLeft, hi.not_ge]
  · have hfcs : (maskN r fcs).testBit i = false :=
      Nat.testBit_lt_two_pow ((maskN_lt r fcs).trans_le (Nat.pow_le_pow_right two_pos hi))
    simp [syndromeStream, fcsStream, concat, hfcs]

theorem syndromeStream_lt (data k r fcs : Nat) : syndromeStream data k r fcs < 2 ^ (k + r) := by
  rw [syndromeStream_eq_xor]
  exact Nat.xor_lt_two_pow (fcsStream_lt data k r)
    ((maskN_lt r fcs).trans_le (Nat.pow_le_pow_right two_pos (Nat.le_add_left r k)))

section
variable {p : Params} {k g r : Nat}

theorem CodecPre.generatorPre (h : CodecPre p k g r) : GeneratorPre p g r := h.2.2

theorem computeFcs_ok (data : Nat) (h : CodecPre p k g r) :
    ∃ c, computeFcs p data k g r = .ok c ∧ Gf2.IsRemainder (fcsStream data k r) g r c.rem := by
  rw [computeFcs_of_pre data h]
  simpa only [maskN_of_lt (fcsStream_lt data k r)] using divide_ok (fcsStream data k r) h.dividerPre

theorem syndrome_ok (data fcs : Nat) (h : CodecPre p k g r) :
    ∃ x, syndrome p data k g r fcs = .ok x ∧ Gf2.IsRemainder (syndromeStream data k r fcs) g r x.rem := by
  rw [syndrome_of_pre data fcs h]
  simpa only [maskN_of_lt (syndromeStream_lt data k r fcs)] using divide_ok (syndromeStream data k r fcs) h.dividerPre

/-- Without data bits the stream of ComputeFCS is 0, and so is its remainder (R153). -/
theorem fcs_eq_zero_of_width_zero {data c : Nat} (hc : Gf2.IsRemainder (fcsStream data k r) g r c)
    (hg : GeneratorPre p g r) (hk : k = 0) : c = 0 := by
  have hstream : fcsStream data k r = 0 := by simp [fcsStream, concat, maskN, hk, Nat.mod_one]
  rw [hstream] at hc
  exact hc.eq_of_lt hg (Nat.two_pow_pos r)

/-- The masked FCS is its own remainder, so the syndrome is the FCS of the data XOR it (R138). -/
theorem syndrome_eq_xor {data fcs c x : Nat} (hc : Gf2.IsRemainder (fcsStream data k r) g r c)
    (hx : Gf2.IsRemainder (syndromeStream data k r fcs) g r x) (hg : GeneratorPre p g r) :
    x = c ^^^ maskN r fcs := by
  rw [syndromeStream_eq_xor] at hx
  exact hx.unique (hc.xor (.self hg (maskN_lt r fcs)))

end

/-! ### The three operations -/

/-- An operation whose division completes writes RESULT, the flags and the divider, and nothing else (R156). -/
theorem finishOperation_of_ok {r : Except FaultReason Division} {d : Division} (h : r = .ok d) (i : Instr) (s : State) :
    finishOperation i r s = .next
      { s with
        result := BitVec.ofNat 64 d.rem, done := true, zero := decide (d.rem = 0), ill := false
        op := BitVec.ofNat 64 d.last.op, cur := BitVec.ofNat 7 d.last.cur } := by
  rw [h]
  exact congrArg Host.Outcome.next (complete_eq d s)

/-- An operation whose check names a reason, which its call then answers, faults for that reason (R171). -/
theorem finishOperation_of_check {check : Option FaultReason} {r : Except FaultReason Division} (i : Instr) (s : State)
    (hcheck : check ≠ none) (hr : ∀ why, check = some why → r = .error why) :
    ∃ (why : FaultReason) (f : Fault), check = some why ∧ finishOperation i r s = .fault f ∧ f.reason = why := by
  obtain ⟨why, hwhy⟩ := Option.ne_none_iff_exists'.mp hcheck
  refine ⟨why, raiseFault i why s, hwhy, by rw [hr why hwhy, finishOperation], ?_⟩
  cases why <;> rfl

section
variable {p : Params} {g r : Nat} {why : FaultReason}

theorem divide_of_check {n : Nat} (s : Nat) (h : checkDivider p n g r = some why) :
    divide p s n g r = .error why := by
  simp only [divide, h]

theorem computeFcs_of_check {k : Nat} (data : Nat) (h : checkCodec p k g r = some why) :
    computeFcs p data k g r = .error why := by
  simp only [computeFcs, h]

theorem syndrome_of_check {k : Nat} (data fcs : Nat) (h : checkCodec p k g r = some why) :
    syndrome p data k g r fcs = .error why := by
  simp only [syndrome, h]

theorem verify_of_syndrome {data k fcs : Nat} {d : Division} (h : syndrome p data k g r fcs = .ok d) :
    verify p data k g r fcs = .ok (decide (d.rem = 0)) := by
  rw [verify, h]
  rfl

end

/-- Settles O6: the remainder is that of polynomial division, so it is 0 for degree 0 and the masked stream for a stream
of r bits; the mask is Divide's own; and the check fails exactly where R101 does. -/
theorem divideWritesRemainderAndFlags : Obligations.DivideWritesRemainderAndFlags := by
  refine ⟨rfl, fun s => ⟨fun h => ?_, fun h => ?_⟩⟩
  · obtain ⟨d, hd, hrem⟩ := divide_ok s.data.toNat h
    have hdeg : s.deg = 0 → d.rem = 0 := fun hr => hrem.eq_zero_of_degree_zero (congrArg BitVec.toNat hr)
    refine ⟨d, _, _, hd, finishOperation_of_ok hd .divide s, hdeg, fun hn => ?_,
      (divide_congr _ _ _ (Nat.mod_mod _ _)).trans hd, fun hn => ?_⟩
    · have hlt : maskN s.total.toNat s.data.toNat < 2 ^ s.deg.toNat := hn ▸ maskN_lt _ _
      exact hrem.eq_of_lt h.generatorPre hlt
    · obtain ⟨-, ⟨hle, -⟩, -⟩ := h
      have hr : s.deg = 0 := BitVec.eq_of_toNat_eq (Nat.le_zero.mp (by simpa [hn] using hle))
      exact ⟨hr, hdeg hr⟩
  · exact finishOperation_of_check .divide s (mt checkDivider_eq_none_iff.mp h) fun _ => divide_of_check _

/-- Settles O7: ComputeFCS is the remainder of the data shifted up by r, which is 0 for degree 0 and without data; the
mask is ComputeFCS's own; and the check fails exactly where R134 does. -/
theorem computeFcsWritesFcsAndFlags : Obligations.ComputeFcsWritesFcsAndFlags := by
  refine ⟨rfl, fun s => ⟨fun h => ?_, fun h => ?_⟩⟩
  · obtain ⟨d, hd, hrem⟩ := computeFcs_ok s.data.toNat h
    exact ⟨d, _, _, hd, finishOperation_of_ok hd .computeFcs s,
      fun hr => hrem.eq_zero_of_degree_zero (congrArg BitVec.toNat hr),
      fun hk => fcs_eq_zero_of_width_zero hrem h.generatorPre (congrArg BitVec.toNat hk),
      (computeFcs_congr _ _ _ (Nat.mod_mod _ _)).trans hd⟩
  · exact finishOperation_of_check .computeFcs s (mt checkCodec_eq_none_iff.mp h) fun _ => computeFcs_of_check _

/-- Settles O8: the syndrome is ComputeFCS of the data XOR the masked FCS, which without data is the masked FCS; the
mask is Syndrome's own; and the check fails exactly where R134 does. -/
theorem verifyWritesSyndromeAndFlags : Obligations.VerifyWritesSyndromeAndFlags := by
  refine ⟨rfl, fun s => ⟨fun h => ?_, fun h => ?_⟩⟩
  · obtain ⟨e, he, hfcs⟩ := computeFcs_ok s.data.toNat h
    obtain ⟨d, hd, hrem⟩ := syndrome_ok s.data.toNat s.fcs.toNat h
    have hxor : d.rem = e.rem ^^^ maskN s.deg.toNat s.fcs.toNat := syndrome_eq_xor hfcs hrem h.generatorPre
    refine ⟨d, e, _, _, hd, verify_of_syndrome hd, finishOperation_of_ok hd .verify s,
      (syndrome_congr _ _ rfl (Nat.mod_mod _ _)).trans hd,
      fun hr => hrem.eq_zero_of_degree_zero (congrArg BitVec.toNat hr), fun hk => ?_, he, hxor⟩
    have hzero : e.rem = 0 := fcs_eq_zero_of_width_zero hfcs h.generatorPre (congrArg BitVec.toNat hk)
    rw [hxor, hzero, Nat.zero_xor, maskN]
  · exact finishOperation_of_check .verify s (mt checkCodec_eq_none_iff.mp h) fun _ => syndrome_of_check _ _

end Sys2Proof.Machine
end

section
/-!
PROOFS. Statements of 60_exceptions.md: the table of model faults (R171) and the only accesses that fault (R172).
-/

namespace Sys2Proof.Machine

/-! ### The first failing row -/

/-- The first of rows 3 to 5 that a generator fails, where it fails one: the rows before the last decide it (R171). -/
def failingGeneratorRow (g r : Nat) : FaultReason :=
  if g.testBit r = false then .genTop else if 2 ^ (r + 1) ≤ g then .genHigh else .genEven

/-- The first failing row of R101 or R134, where one fails; `lenFails` says that row 2, the only one in which the two
tables differ, fails. -/
def failingRow (p : Params) (lenFails : Prop) [Decidable lenFails] (g r : Nat) : FaultReason :=
  if ¬ r ≤ p.W - 1 then .degRange else if lenFails then .lenRange else failingGeneratorRow g r

section
variable {p : Params} {g r : Nat}

theorem checkGenerator_of_not_pre (h : ¬ GeneratorPre p g r) :
    checkGenerator p g r = some (failingGeneratorRow g r) := by
  unfold checkGenerator failingGeneratorRow
  by_cases htop : g.testBit r = false
  · rw [if_pos htop, if_pos htop]
  · by_cases hhigh : g < 2 ^ (r + 1)
    · have heven : p.evenGen = .fault ∧ g.testBit 0 = false := by simpa [GeneratorPre, htop, hhigh] using h
      rw [if_neg htop, if_neg (not_not_intro hhigh), if_pos heven, if_neg htop, if_neg hhigh.not_ge]
    · rw [if_neg htop, if_pos hhigh, if_neg htop, if_pos (not_lt.mp hhigh)]

theorem checkDivider_of_not_pre {n : Nat} (h : ¬ DividerPre p n g r) :
    checkDivider p n g r = some (failingRow p (n < r ∨ p.W < n) g r) := by
  unfold checkDivider failingRow
  by_cases hdeg : r ≤ p.W - 1
  · by_cases hlen : r ≤ n ∧ n ≤ p.W
    · have hgen : ¬ GeneratorPre p g r := fun hg => h ⟨hdeg, hlen, hg⟩
      simp [hdeg, hlen, hlen.1.not_gt, hlen.2.not_gt, checkGenerator_of_not_pre hgen]
    · have hlenFails : n < r ∨ p.W < n := by omega
      simp [hdeg, hlen, hlenFails]
  · simp [hdeg]

theorem checkCodec_of_not_pre {k : Nat} (h : ¬ CodecPre p k g r) :
    checkCodec p k g r = some (failingRow p (p.W < k + r) g r) := by
  unfold checkCodec failingRow
  by_cases hdeg : r ≤ p.W - 1
  · by_cases hlen : k + r ≤ p.W
    · have hgen : ¬ GeneratorPre p g r := fun hg => h ⟨hdeg, hlen, hg⟩
      simp [hdeg, hlen, hlen.not_gt, checkGenerator_of_not_pre hgen]
    · simp [hdeg, hlen, not_le.mp hlen]
  · simp [hdeg]

end

/-- An operation whose call answers its first failing row records that row's operands and writes no register (R171). -/
theorem finishOperation_failingRow {r : Except FaultReason Division} {lenFails : Prop} [Decidable lenFails] {s : State}
    (h : r = .error (failingRow s.params lenFails s.gen.toNat s.deg.toNat)) (i : Instr) :
    finishOperation i r s = .fault
      (if ¬ s.deg.toNat ≤ s.params.W - 1 then .degRange { s with fault := some (.degRange (encode i) s.deg) }
        else if lenFails then .lenRange { s with fault := some (lenRangeRecord i s) }
        else if s.gen.toNat.testBit s.deg.toNat = false then
          .genTop { s with fault := some (.genTop (encode i) s.deg s.gen) }
        else if 2 ^ (s.deg.toNat + 1) ≤ s.gen.toNat then
          .genHigh { s with fault := some (.genHigh (encode i) s.deg s.gen) }
        else .genEven { s with fault := some (.genEven (encode i) s.gen) }) := by
  rw [h, finishOperation]
  unfold failingRow failingGeneratorRow
  split_ifs <;> rfl

/-- Settles O9: each check answers the first row that fails, and the fault of that row records its operands. -/
theorem operationsFaultOnTheFirstFailingRow : Obligations.OperationsFaultOnTheFirstFailingRow := by
  refine ⟨fun s h => ?_, fun s i w hi h => ?_, rfl, rfl, rfl, rfl, rfl⟩
  · exact finishOperation_failingRow (divide_of_check _ (checkDivider_of_not_pre h)) .divide
  · have hcheck := checkCodec_of_not_pre h
    rcases hi with ⟨rfl, rfl⟩ | ⟨rfl, rfl⟩
    · exact finishOperation_failingRow (computeFcs_of_check _ hcheck) .computeFcs
    · exact finishOperation_failingRow (syndrome_of_check _ _ hcheck) .verify

/-! ### The accesses that fault -/

/-- An issued word that faults is an operation command's (R172). -/
theorem issueCommand_fault_bounds {w : Word} {s : State} {f : Fault} (h : issueCommand w s = .fault f) :
    1 ≤ w.toNat ∧ w.toNat ≤ 3 := by
  rcases issueCommand_cases w s with ⟨i, hw, hi⟩ | ⟨-, hill⟩
  · obtain ⟨hop, -⟩ := exec_fault_cases (hi ▸ h)
    exact decode_operation_bounds hw hop
  · cases hill.symm.trans h

theorem issueCommand_not_refused (w : Word) (s : State) (r : Refusal) : issueCommand w s ≠ .refused r := by
  rcases issueCommand_cases w s with ⟨i, -, hi⟩ | ⟨-, hill⟩
  · exact hi ▸ exec_not_refused i s r
  · simp [hill]

/-- An access goes on, or is a write to CMD and ends as the issued word does. -/
theorem perform_next_or_issueCommand (a : Access) (s : State) :
    (∃ t, perform a s = .next t) ∨ ∃ w, a = .write 0 w ∧ perform a s = issueCommand w s := by
  rcases perform_cases a s with ⟨i, w, ha, hi, hp⟩ | ⟨_, _, t, -, hp, -⟩ | ⟨_, -, hp⟩ | ⟨-, hp⟩
  · cases slot_ofIndex_eq_cmd_iff.mp hi
    exact .inr ⟨w, ha, hp⟩
  · exact .inl ⟨t, hp⟩
  · exact .inl ⟨_, hp⟩
  · exact .inl ⟨_, hp⟩

/-- A step goes on, or its access is a write to CMD and it ends as the issued word does. -/
theorem step_next_or_issueCommand (s : State) :
    (∃ t, step s = .next t) ∨
      ∃ w rest, s.pending = .write 0 w :: rest ∧ step s = issueCommand w (s.setPending rest) := by
  rcases step_cases s with ⟨-, hs⟩ | ⟨a, rest, hp, hs⟩
  · exact .inl ⟨s, hs⟩
  · rw [hs]
    rcases perform_next_or_issueCommand a (s.setPending rest) with hnext | ⟨w, rfl, hw⟩
    · exact .inl hnext
    · exact .inr ⟨w, rest, hp, hw⟩

/-- Settles O21: a step that does not go on issues a word at CMD, which faults for operation commands alone and is
never refused. -/
theorem onlyOperationCommandsFault : Obligations.OnlyOperationCommandsFault := by
  refine ⟨fun s f h => ?_, fun s r h => ?_⟩
  · rcases step_next_or_issueCommand s with ⟨t, ht⟩ | ⟨w, rest, hp, hw⟩
    · cases ht.symm.trans h
    · exact ⟨w, rest, hp, issueCommand_fault_bounds (hw ▸ h)⟩
  · rcases step_next_or_issueCommand s with ⟨t, ht⟩ | ⟨w, rest, -, hw⟩
    · cases ht.symm.trans h
    · exact issueCommand_not_refused w _ r (hw ▸ h)

end Sys2Proof.Machine
end

section
/-!
PROOFS. Statements of 70_reset_and_hazards.md: the reset event (R190) and the reset values (R192).
-/

namespace Sys2Proof.Machine

/-- The reset event answers the reset state, but for the fault record (R34), the parameters and the host's side. -/
theorem State.resetEvent_eq (s : State) :
    s.resetEvent =
      { State.reset with
        fault := s.fault, params := s.params, pending := s.pending, returned := s.returned } := rfl

/-- A reset access is the reset event (R190). -/
@[simp] theorem perform_reset (s : State) : perform .reset s = .next s.resetEvent := rfl

/-- Settles O14: a reset access answers the reset event's state, which differs from the reset state in its frame alone. -/
theorem resetEventClearsRegisters : Obligations.ResetEventClearsRegisters := by
  intro s
  rw [perform_reset, State.resetEvent_eq]

/-- Settles O15: each stored field of the reset state is its row of R192. -/
theorem resetStateIsZero : Obligations.ResetStateIsZero :=
  ⟨rfl, rfl, rfl, rfl, rfl, rfl, rfl, rfl, rfl, rfl, rfl, rfl⟩

end Sys2Proof.Machine
end

section
/-!
PROOFS. Laws of the division (40_divider.md sections 2 and 3): the invariants of a run and its length (R106, R108,
R110), the remainder of polynomial division with its corner cases and linearity (R109, R113, R114), the split form
(R111), and the loop without the check (R112).
-/

namespace Sys2Proof.Machine

/-! ### Runs of any length -/

section
variable {W n s g r : Nat} {d : Divider}

/-- A run of legal operands keeps the congruence at every micro-step (R108). -/
theorem dividerRun_congruent {p : Params} (s steps : Nat) (h : DividerPre p n g r) :
    CongruentToBitsRead n (maskN n s) g r
      (dividerRun p.W n (maskN n s) g r steps (dividerInit n (maskN n s) r)) := by
  obtain ⟨hr, ⟨hrn, -⟩, -, hg, -⟩ := h
  have hW : r + 1 ≤ p.W := by have := p.one_le_W; omega
  exact dividerRun_keeps (dividerStep_keeps_congruent hW hg) _ _ (dividerInit_congruent g (maskN_lt n s) hrn)

/-- Settles O30: the congruence holds at the initial window, and each micro-step keeps it. -/
theorem microStepsKeepTheCongruence : Obligations.MicroStepsKeepTheCongruence :=
  fun _ s _ _ _ steps h => dividerRun_congruent s steps h

/-- Where a micro-step answers Done, a run of any length stays (R105). -/
theorem dividerRun_of_finished {op : Nat} (h : dividerStep W n s g r d = .finished op) (fuel : Nat) :
    dividerRun W n s g r fuel d = d := by
  cases fuel with
  | zero => rfl
  | succ fuel => simp only [dividerRun, h]

/-- A run longer than the division's number of micro-steps ends where the division does (R110). -/
theorem dividerRun_fuel_add (hg : g.testBit r = true) (more : Nat) :
    dividerRun W n (maskN n s) g r (dividerFuel n r + more) (dividerInit n (maskN n s) r) =
      dividerEnd W n s g r := by
  rw [dividerRun_add]
  exact dividerRun_of_finished (dividerEnd_finished hg) more

/-- Settles O32: the run has ended by its length, where it stays; a reduction is by a generator with its top bit set. -/
theorem divisionEndsWithinTheStepBound : Obligations.DivisionEndsWithinTheStepBound := by
  intro p s n g r h
  obtain ⟨-, -, hg, -, -⟩ := h
  refine ⟨dividerRun_fuel_add hg, fun d d' hbit hs => ?_⟩
  rcases dividerStep_step_cases hs with ⟨-, rfl⟩ | ⟨hclear, -⟩
  · exact ⟨testBit_reduce hg hbit, rfl⟩
  · cases hbit.symm.trans hclear

end

/-! ### The remainder -/

/-- A division ends with a register of r bits (R105, R108). -/
theorem dividerEnd_op_lt {p : Params} {n g r : Nat} (s : Nat) (h : DividerPre p n g r) :
    (dividerEnd p.W n s g r).op < 2 ^ r := by
  obtain ⟨hends, -⟩ := divisionEndsWithTopBitClear
  obtain ⟨hbit, -⟩ := hends p s n g r h
  obtain ⟨hop, -⟩ := dividerEnd_congruent s h
  exact lt_two_pow_of_testBit_false hop hbit

/-- Settles O29: the register has r bits at the end, so masking it to r bits keeps it. -/
theorem remainderIsTheFinalRegister : Obligations.RemainderIsTheFinalRegister := by
  intro p s n g r h
  obtain ⟨hends, -⟩ := divisionEndsWithTopBitClear
  obtain ⟨-, hcur, -⟩ := hends p s n g r h
  exact ⟨_, divide_of_pre s h, maskN_of_lt (dividerEnd_op_lt s h), maskN_lt _ _, hcur⟩

/-- Settles O31: the congruence at the end of the stream makes the register the remainder. -/
theorem divideIsPolynomialRemainder : Obligations.DivideIsPolynomialRemainder :=
  fun _ s _ _ _ h => divide_ok s h

/-- The remainder of a stream of r + 1 bits takes one reduction, if bit r is set (R113). -/
theorem isRemainder_one_reduction {p : Params} {a g r : Nat} (hg : GeneratorPre p g r) (ha : a < 2 ^ (r + 1)) :
    Gf2.IsRemainder a g r (if a.testBit r then a ^^^ g else a) := by
  have ⟨htop, hhigh, _⟩ := hg
  by_cases hbit : a.testBit r = true
  · have hlt := lt_two_pow_of_testBit_false (Nat.xor_lt_two_pow ha hhigh) (testBit_reduce htop hbit)
    rw [if_pos hbit]
    exact .of_dvd hg hlt (by rw [Nat.xor_right_comm, Nat.xor_self, Nat.zero_xor])
  · rw [if_neg hbit]
    exact .self hg (lt_two_pow_of_testBit_false ha (by simpa using hbit))

/-- Settles O35: each case names the remainder of its stream, and remainders are unique. -/
theorem dividerCornerCases : Obligations.DividerCornerCases := by
  intro p s n g r h
  have hg := h.generatorPre
  obtain ⟨d, hd, hrem⟩ := divide_ok s h
  have hlt := maskN_lt n s
  have hone : n = r + 1 → d.rem = if (maskN n s).testBit r then maskN n s ^^^ g else maskN n s := by
    rintro rfl
    exact hrem.unique (isRemainder_one_reduction hg hlt)
  refine ⟨d, hd, hrem.eq_zero_of_degree_zero, fun hn => ?_, hone, hrem.eq_of_lt hg, fun hs hn => ?_⟩
  · exact hrem.eq_of_lt hg (hn ▸ hlt)
  · obtain ⟨htop, -⟩ := hg
    have hstream : maskN n s = g := hs
    rw [hone hn, hstream, if_pos htop, Nat.xor_self]

theorem maskN_xor (n a b : Nat) : maskN n (a ^^^ b) = maskN n a ^^^ maskN n b := Nat.xor_mod_two_pow

/-- Settles O36: the XOR of two remainders is the remainder of the XOR. -/
theorem divideIsLinear : Obligations.DivideIsLinear := by
  intro p a b n g r h
  obtain ⟨x, hx, hxrem⟩ := divide_ok a h
  obtain ⟨y, hy, hyrem⟩ := divide_ok b h
  obtain ⟨z, hz, hzrem⟩ := divide_ok (a ^^^ b) h
  exact ⟨x, y, z, hx, hy, hz, (maskN_xor n a b ▸ hzrem).unique (hxrem.xor hyrem)⟩

/-! ### The split form -/

section
variable {W n s g r c : Nat}

theorem slice_lt (width lo v : Nat) : slice width lo v < 2 ^ width := maskN_lt width (v >>> lo)

/-- The first c bits of an n-bit stream, as a stream of their own (R111). -/
theorem slice_top_eq_div (hs : s < 2 ^ n) (hc : c ≤ n) : slice c (n - c) s = s / 2 ^ (n - c) := by
  rw [slice, Nat.shiftRight_eq_div_pow, Nat.mod_eq_of_lt]
  rwa [Nat.div_lt_iff_lt_mul (Nat.two_pow_pos _), ← pow_add, Nat.add_sub_cancel' hc]

theorem streamBit_firstBits {j : Nat} (hc : c ≤ n) (hj : j < c) :
    streamBit c (s / 2 ^ (n - c)) j = streamBit n s j := by
  apply Nat.eq_of_testBit_eq
  intro i
  rw [testBit_streamBit, testBit_streamBit, Nat.testBit_div_two_pow,
    show c - 1 - j + i + (n - c) = n - 1 - j + i by omega]

/-- Both streams begin with the same window (R103). -/
theorem dividerInit_firstBits (hs : s < 2 ^ n) (hr : r + 1 ≤ c) (hc : c ≤ n) :
    dividerInit c (s / 2 ^ (n - c)) r = dividerInit n s r := by
  have hpre : s / 2 ^ (n - c) < 2 ^ c := slice_top_eq_div hs hc ▸ slice_lt c (n - c) s
  rw [dividerInit, dividerInit, if_pos hr, if_pos (hr.trans hc), slice_top_eq_div hpre hr,
    slice_top_eq_div hs (hr.trans hc), Nat.div_div_eq_div_mul, ← pow_add,
    show n - c + (c - (r + 1)) = n - (r + 1) by omega]

/-- A micro-step over the first c bits is a micro-step over the full stream, unless it ends the first phase. -/
theorem dividerStep_firstBits {d d' : Divider} (hc : c ≤ n)
    (h : dividerStep W c (s / 2 ^ (n - c)) g r d = .step d') : dividerStep W n s g r d = .step d' := by
  rcases dividerStep_step_cases h with ⟨hbit, rfl⟩ | ⟨hbit, hcur, rfl⟩
  · simp [dividerStep, hbit]
  · simp [dividerStep, hbit, hcur.trans_le hc, streamBit_firstBits hc hcur]

/-- The first phase is a run over the full stream, stopped early (R111). -/
theorem dividerRun_firstBits (hc : c ≤ n) (fuel : Nat) (d : Divider) :
    ∃ m, dividerRun W c (s / 2 ^ (n - c)) g r fuel d = dividerRun W n s g r m d := by
  induction fuel generalizing d with
  | zero => exact ⟨0, rfl⟩
  | succ fuel ih =>
    cases hs : dividerStep W c (s / 2 ^ (n - c)) g r d with
    | step d' =>
      obtain ⟨m, hm⟩ := ih d'
      exact ⟨m + 1, by simp only [dividerRun, hs, dividerStep_firstBits hc hs, hm]⟩
    | finished op => exact ⟨0, dividerRun_of_finished hs _⟩

/-- The two phases together are one run over the full stream, and it is long enough to end (R111). -/
theorem dividerSplit_eq (hg : g.testBit r = true) (hr : r + 1 ≤ c) (hc : c ≤ n) :
    dividerSplit W n s g r c = some (dividerEnd W n s g r) := by
  have hlt := maskN_lt n s
  have hphase : dividerEnd W c (slice c (n - c) (maskN n s)) g r =
      dividerRun W c (maskN n s / 2 ^ (n - c)) g r (dividerFuel c r) (dividerInit n (maskN n s) r) := by
    rw [dividerEnd, maskN_of_lt (slice_lt c (n - c) (maskN n s)), slice_top_eq_div hlt hc,
      dividerInit_firstBits hlt hr hc]
  obtain ⟨m, hm⟩ := dividerRun_firstBits (W := W) (s := maskN n s) (g := g) (r := r) hc (dividerFuel c r)
    (dividerInit n (maskN n s) r)
  rw [dividerSplit, if_pos ⟨hr, hc⟩]
  dsimp only
  rw [hphase, hm, ← dividerRun_add, Nat.add_comm, dividerRun_fuel_add hg]

end

/-- Settles O33: the two phases are one run of the single pass; the split form asks for its cursor's range. -/
theorem splitDivisionEqualsSinglePass : Obligations.SplitDivisionEqualsSinglePass := by
  intro p s n g r c h
  obtain ⟨-, -, hg, -, -⟩ := h
  exact ⟨dividerSplit_eq hg, fun hc => if_neg hc⟩

/-! ### The loop without the check -/

section
variable {W n s g r : Nat} {d d' : Divider}

/-- Until a reduction the register holds the stream bits read: it differs from them by a multiple of 0. -/
theorem congruent_zero_iff :
    CongruentToBitsRead n s 0 r d ↔ d.op < 2 ^ (r + 1) ∧ d.cur ≤ n ∧ d.op = s / 2 ^ (n - d.cur) := by
  rw [CongruentToBitsRead, poly_zero, zero_dvd_iff, ← poly_zero, poly_injective.eq_iff, Nat.xor_eq_zero_iff]

/-- A bring-down reads no generator, so the register goes on holding the stream bits read. -/
theorem bringDown_keeps_congruent_zero (hW : r + 1 ≤ W) (h : CongruentToBitsRead n s 0 r d)
    (hbit : d.op.testBit r = false) (hs : dividerStep W n s g r d = .step d') : CongruentToBitsRead n s 0 r d' := by
  have hsame : dividerStep W n s 0 r d = dividerStep W n s g r d := by simp [dividerStep, hbit]
  exact dividerStep_keeps_congruent hW (Nat.two_pow_pos _) d d' h (hsame.trans hs)

/-- A generator without its top bit never clears the register's top bit, once set; until then nothing is reduced. -/
theorem dividerStep_keeps_top_set_or_congruent_zero (hW : r + 1 ≤ W) (hg : g.testBit r = false) (d d' : Divider)
    (h : d.op.testBit r = true ∨ CongruentToBitsRead n s 0 r d) (hs : dividerStep W n s g r d = .step d') :
    d'.op.testBit r = true ∨ CongruentToBitsRead n s 0 r d' := by
  rcases dividerStep_step_cases hs with ⟨hbit, rfl⟩ | ⟨hbit, -⟩
  · exact .inl (by rw [Nat.testBit_xor, hbit, hg, Bool.xor_false])
  · refine .inr (bringDown_keeps_congruent_zero hW (h.resolve_left ?_) hbit hs)
    simp [hbit]

/-- Without a reduction the run ends at the end of the stream, with the stream in the register (R112). -/
theorem eq_stream_of_congruent_zero (h : CongruentToBitsRead n s 0 r d) (hn : n ≤ d.cur) :
    d = { op := s, cur := n } := by
  obtain ⟨-, hcur, hop⟩ := congruent_zero_iff.mp h
  have hend := hcur.antisymm hn
  rw [hend, Nat.sub_self, pow_zero, Nat.div_one] at hop
  exact congrArg₂ Divider.mk hop hend

theorem testBit_false_of_congruent_zero (h : CongruentToBitsRead n s 0 r d) (hs : s < 2 ^ r) :
    d.op.testBit r = false := by
  obtain ⟨-, -, hop⟩ := congruent_zero_iff.mp h
  exact Nat.testBit_lt_two_pow (hop ▸ (Nat.div_le_self _ _).trans_lt hs)

/-- A stream below 2^r never sets the register's top bit: the run brings all of it down (R112). -/
theorem dividerRun_of_lt (hW : r + 1 ≤ W) (hs : s < 2 ^ r) {fuel : Nat} (hfuel : n - d.cur ≤ fuel)
    (h : CongruentToBitsRead n s 0 r d) : dividerRun W n s g r fuel d = { op := s, cur := n } := by
  induction fuel generalizing d with
  | zero =>
    have hn : n ≤ d.cur := by omega
    exact eq_stream_of_congruent_zero h hn
  | succ fuel ih =>
    cases hstep : dividerStep W n s g r d with
    | step d' =>
      have hbit := testBit_false_of_congruent_zero h hs
      have hless : n - d'.cur ≤ fuel := by
        rcases dividerStep_step_cases hstep with ⟨hset, -⟩ | ⟨-, hlt, rfl⟩
        · cases hset.symm.trans hbit
        · dsimp only
          omega
      simpa only [dividerRun, hstep] using ih hless (bringDown_keeps_congruent_zero hW h hbit hstep)
    | finished op =>
      obtain ⟨-, -, hn⟩ := dividerStep_eq_finished_iff.mp hstep
      exact (dividerRun_of_finished hstep _).trans (eq_stream_of_congruent_zero h hn)

/-- A stream of 2^r or more is not all brought down before the register's top bit is set, and stays set (R112). -/
theorem dividerRun_never_finished (hW : r + 1 ≤ W) (hg : g.testBit r = false) (hs : 2 ^ r ≤ s) (steps op : Nat)
    (h : CongruentToBitsRead n s 0 r d) : dividerStep W n s g r (dividerRun W n s g r steps d) ≠ .finished op := by
  intro hdone
  obtain ⟨-, hbit, hn⟩ := dividerStep_eq_finished_iff.mp hdone
  rcases dividerRun_keeps (dividerStep_keeps_top_set_or_congruent_zero hW hg) steps d (.inr h) with hset | hread
  · cases hset.symm.trans hbit
  · have ⟨hop, _⟩ := hread
    rw [eq_stream_of_congruent_zero hread hn] at hop hbit
    exact hs.not_gt (lt_two_pow_of_testBit_false hop hbit)

end

/-- Settles O34: nothing is reduced before the register's top bit is set, which it is exactly for a stream of 2^r or
more, and then for ever. -/
theorem uncheckedGeneratorWithoutTopBitHangs : Obligations.UncheckedGeneratorWithoutTopBitHangs := by
  intro p s n g r hr hrn hn hg
  have hW : r + 1 ≤ p.W := by have := p.one_le_W; omega
  have hinit := dividerInit_congruent (r := r) 0 (maskN_lt n s) hrn
  refine ⟨fun hs steps op => dividerRun_never_finished hW hg hs steps op hinit, fun hs => ?_⟩
  have hend : dividerEnd p.W n s g r = { op := maskN n s, cur := n } :=
    dividerRun_of_lt hW hs (by simp only [dividerInit_cur, dividerFuel]; omega) hinit
  refine ⟨hend, ?_⟩
  rw [hend, dividerStep_eq_finished_iff]
  exact ⟨rfl, Nat.testBit_lt_two_pow hs, le_rfl⟩

end Sys2Proof.Machine
end

section
/-!
PROOFS. What every step keeps: the machine's invariant (R26, R29, R105, R106), the fault record and the parameters
(R34, R171), over a step and over a run; and the bound on RESULT (R25).
-/

namespace Sys2Proof.Machine

/-! ### The division of an operation that completes -/

theorem divide_eq_ok {p : Params} {s n g r : Nat} {d : Division} (h : divide p s n g r = .ok d) :
    DividerPre p n g r ∧ d.rem = d.last.op ∧ d.rem < 2 ^ r ∧ d.last.cur = n := by
  have hpre : DividerPre p n g r := by
    rw [← checkDivider_eq_none_iff]
    cases hc : checkDivider p n g r with
    | none => rfl
    | some why => cases h.symm.trans (divide_of_check s hc)
  obtain ⟨e, he, hlast⟩ := remainderIsTheFinalRegister p s n g r hpre
  cases h.symm.trans he
  exact ⟨hpre, hlast⟩

theorem computeFcs_eq_ok {p : Params} {data k g r : Nat} {d : Division} (h : computeFcs p data k g r = .ok d) :
    divide p (fcsStream data k r) (k + r) g r = .ok d := by
  cases hc : checkCodec p k g r with
  | none => exact (computeFcs_of_pre data (checkCodec_eq_none_iff.mp hc)).symm.trans h
  | some why => cases h.symm.trans (computeFcs_of_check data hc)

theorem syndrome_eq_ok {p : Params} {data k g r fcs : Nat} {d : Division} (h : syndrome p data k g r fcs = .ok d) :
    divide p (syndromeStream data k r fcs) (k + r) g r = .ok d := by
  cases hc : checkCodec p k g r with
  | none => exact (syndrome_of_pre data fcs (checkCodec_eq_none_iff.mp hc)).symm.trans h
  | some why => cases h.symm.trans (syndrome_of_check data fcs hc)

/-- `d` is a division that an operation can complete with in `s`: one of some stream by GEN and DEG (R152 to R154). -/
def DividesIn (s : State) (d : Division) : Prop :=
  ∃ stream n : Nat, divide s.params stream n s.gen.toNat s.deg.toNat = .ok d

/-- An operation that goes on completes with a division by GEN and DEG (R152 to R154). -/
theorem exec_operation_next {i : Instr} {s t : State} (hi : i ≠ .nop) (h : exec i s = .next t) :
    ∃ d, DividesIn s d ∧ t = complete d s := by
  cases i with
  | nop => exact absurd rfl hi
  | divide =>
    obtain ⟨d, hd, rfl⟩ := finishOperation_next h
    exact ⟨d, ⟨_, _, hd⟩, rfl⟩
  | computeFcs =>
    obtain ⟨d, hd, rfl⟩ := finishOperation_next h
    exact ⟨d, ⟨_, _, computeFcs_eq_ok hd⟩, rfl⟩
  | verify =>
    obtain ⟨d, hd, rfl⟩ := finishOperation_next h
    exact ⟨d, ⟨_, _, syndrome_eq_ok hd⟩, rfl⟩

/-- A remainder of fewer than W bits fits RESULT (R25). -/
theorem complete_result_toNat {d : Division} {s : State} {r : Nat} (hr : r ≤ s.params.W - 1) (hd : d.rem < 2 ^ r) :
    (complete d s).result.toNat = d.rem := by
  have hW := s.params.W_le
  exact Nat.mod_eq_of_lt (hd.trans_le (Nat.pow_le_pow_right two_pos (by omega)))

theorem complete_result_eq_zero_iff {d : Division} {s : State} (h : (complete d s).result.toNat = d.rem) :
    (complete d s).result = 0 ↔ d.rem = 0 := by
  rw [← h]
  exact BitVec.toNat_eq

/-- Settles O45: RESULT is the remainder of a division by a generator of degree DEG. -/
theorem resultFitsTheDegree : Obligations.ResultFitsTheDegree := by
  intro i s t hi h
  obtain ⟨d, ⟨_, _, hd⟩, rfl⟩ := exec_operation_next hi h
  obtain ⟨⟨hr, -⟩, -, hlt, -⟩ := divide_eq_ok hd
  rwa [complete_result_toNat hr hlt]

/-! ### What a step that goes on can do -/

/-- All that an access can make of `s` where it goes on (R52, R53, R150 to R156, R190). -/
inductive AccessEffect (s : State) : State → Prop
  | nothing : AccessEffect s s
  | setGen (v : Word) : AccessEffect s (s.setGen v)
  | setCfg (v : Word) : AccessEffect s (s.setCfg v)
  | setData (v : Word) : AccessEffect s (s.setData v)
  | setFcs (v : Word) : AccessEffect s (s.setFcs v)
  | giveToHost (v : Word) : AccessEffect s (s.giveToHost v)
  | resetEvent : AccessEffect s s.resetEvent
  | setIll (b : Bool) : AccessEffect s (s.setIll b)
  | complete (d : Division) (hd : DividesIn s d) : AccessEffect s (complete d s)

theorem exec_effect {i : Instr} {s t : State} (h : exec i s = .next t) : AccessEffect s t := by
  rcases eq_or_ne i .nop with rfl | hi
  · cases h
    exact .setIll false
  · obtain ⟨d, hd, rfl⟩ := exec_operation_next hi h
    exact .complete d hd

theorem issueCommand_effect {w : Word} {s t : State} (h : issueCommand w s = .next t) : AccessEffect s t := by
  rcases issueCommand_cases w s with ⟨i, -, hi⟩ | ⟨-, hill⟩
  · exact exec_effect (hi ▸ h)
  · cases hill.symm.trans h
    exact .setIll true

theorem perform_effect {a : Access} {s t : State} (h : perform a s = .next t) : AccessEffect s t := by
  rcases perform_cases a s with ⟨i, v, -, -, hp⟩ | ⟨i, v, u, -, hp, hu⟩ | ⟨i, -, hp⟩ | ⟨-, hp⟩
  · exact issueCommand_effect (hp ▸ h)
  · cases hp.symm.trans h
    rcases hu with rfl | rfl | rfl | rfl | rfl
    · exact .nothing
    · exact .setGen v
    · exact .setCfg v
    · exact .setData v
    · exact .setFcs v
  · cases hp.symm.trans h
    exact .giveToHost _
  · cases hp.symm.trans h
    exact .resetEvent

/-- A step that goes on takes accesses from the pending list, and has one of the effects (R54). -/
theorem step_effect {s t : State} (h : step s = .next t) : ∃ rest, AccessEffect (s.setPending rest) t := by
  rcases step_cases s with ⟨-, hs⟩ | ⟨a, rest, -, hs⟩
  · cases hs.symm.trans h
    exact ⟨s.pending, .nothing⟩
  · exact ⟨rest, perform_effect (hs ▸ h)⟩

/-! ### The invariant -/

/-- A completed operation establishes the invariant, from any state: RESULT and op are the remainder, below 2^(W-1),
and the cursor stands at the end of a stream of at most W bits (R105, R106, R156). -/
theorem complete_inv {d : Division} {s : State} (hd : DividesIn s d) : (complete d s).Inv := by
  obtain ⟨_, n, hd⟩ := hd
  obtain ⟨⟨hr, ⟨-, hn⟩, -⟩, hlast, hlt, hcur⟩ := divide_eq_ok hd
  have hresult := complete_result_toNat hr hlt
  have hop : (complete d s).op = (complete d s).result := congrArg (BitVec.ofNat 64) hlast.symm
  refine ⟨hop, ?_, ?_, Bool.noConfusion, fun _ => ?_⟩
  · rw [hop, hresult]
    exact hlt.trans_le (Nat.pow_le_pow_right two_pos hr)
  · exact (Nat.mod_le _ _).trans (hcur.trans_le hn)
  · rw [decide_eq_decide.mpr (complete_result_eq_zero_iff hresult)]
    rfl

theorem resetEvent_inv (s : State) : s.resetEvent.Inv :=
  ⟨rfl, Nat.two_pow_pos _, Nat.zero_le _, fun _ => ⟨rfl, rfl, rfl⟩, Bool.noConfusion⟩

theorem AccessEffect.keeps_inv {s t : State} (h : AccessEffect s t) (hs : s.Inv) : t.Inv := by
  cases h with
  | nothing | setGen | setCfg | setData | setFcs | giveToHost | setIll => exact hs
  | resetEvent => exact resetEvent_inv s
  | complete d hd => exact complete_inv hd

/-- Settles O18: a completed operation and a reset establish the invariant, and no other effect touches its fields. -/
theorem stepKeepsTheInvariant : Obligations.StepKeepsTheInvariant := by
  intro s t hs h
  obtain ⟨rest, heffect⟩ := step_effect h
  exact heffect.keeps_inv (s := s.setPending rest) hs

/-! ### The fault record and the parameters -/

theorem AccessEffect.keeps_fault_and_params {s t : State} (h : AccessEffect s t) :
    t.fault = s.fault ∧ t.params = s.params := by
  cases h <;> exact ⟨rfl, rfl⟩

theorem faultRecord_reason (i : Instr) (why : FaultReason) (s : State) : (faultRecord i why s).reason = why := by
  cases why with
  | lenRange => cases i <;> rfl
  | degRange | genTop | genHigh | genEven => rfl

theorem raiseFault_reason (i : Instr) (why : FaultReason) (s : State) : (raiseFault i why s).reason = why := by
  cases why <;> rfl

theorem raiseFault_left (i : Instr) (why : FaultReason) (s : State) :
    (raiseFault i why s).left = s.setFault (faultRecord i why s) := by
  cases why <;> rfl

theorem issueCommand_fault {w : Word} {s : State} {f : Fault} (h : issueCommand w s = .fault f) :
    ∃ i why, f = raiseFault i why s := by
  rcases issueCommand_cases w s with ⟨i, -, hi⟩ | ⟨-, hill⟩
  · obtain ⟨-, why, hf⟩ := exec_fault_cases (hi ▸ h)
    exact ⟨i, why, hf⟩
  · cases hill.symm.trans h

/-- A step that faults has taken its access from the pending list, and raises the fault of a reason (R171). -/
theorem step_fault {s : State} {f : Fault} (h : step s = .fault f) :
    ∃ i why, f = raiseFault i why (s.setPending s.pending.tail) := by
  rcases step_next_or_issueCommand s with ⟨t, ht⟩ | ⟨w, rest, hp, hw⟩
  · cases ht.symm.trans h
  · rw [hp]
    exact issueCommand_fault (hw ▸ h)

/-- Settles O20: no effect of a step that goes on touches the record or the parameters; a fault writes its record. -/
theorem faultRecordIsSetByFaultsAlone : Obligations.FaultRecordIsSetByFaultsAlone := by
  refine ⟨fun s t h => ?_, fun s f h => ?_⟩
  · obtain ⟨rest, heffect⟩ := step_effect h
    exact heffect.keeps_fault_and_params
  · obtain ⟨i, why, rfl⟩ := step_fault h
    refine ⟨faultRecord i why (s.setPending s.pending.tail), ?_, raiseFault_left i why _⟩
    rw [faultRecord_reason, raiseFault_reason]

/-! ### Runs -/

/-- What every step that goes on keeps holds along every run that goes on. -/
theorem run_keeps {P : State → Prop} (hstep : ∀ s t, P s → step s = .next t → P t) (steps : Nat) {s t : State}
    (hs : P s) (h : Host.Core.run core steps s = .next t) : P t := by
  induction steps generalizing s with
  | zero =>
    cases h
    exact hs
  | succ steps ih =>
    cases hu : core.step s with
    | next u =>
      simp only [Host.Core.run, hu] at h
      exact ih (hstep s u hs hu) h
    | fault f => simp [Host.Core.run, hu] at h
    | refused r => simp [Host.Core.run, hu] at h

/-- Settles O27: each step keeps the record, the invariant and the parameters, so a run does. -/
theorem runsStayObservable : Obligations.RunsStayObservable := by
  intro steps s t hobs hinv h
  refine run_keeps (P := fun u => u.Observable ∧ u.Inv ∧ u.params = s.params) (fun u v hu hstep => ?_) steps
    ⟨hobs, hinv, rfl⟩ h
  obtain ⟨hobs, hinv, hparams⟩ := hu
  obtain ⟨hgoes, -⟩ := faultRecordIsSetByFaultsAlone
  obtain ⟨hfault, hsame⟩ := hgoes u v hstep
  exact ⟨hfault.trans hobs, stepKeepsTheInvariant u v hinv hstep, hsame.trans hparams⟩

end Sys2Proof.Machine
end

section
/-!
PROOFS. Statements of 70_reset_and_hazards.md on what follows a reset event (R192, R193) and on a split division (R198).
-/

namespace Sys2Proof.Machine

/-- Settles O19: the state at power-on is what a reset event makes of it. -/
theorem resetSatisfiesTheInvariant : Obligations.ResetSatisfiesTheInvariant :=
  resetEvent_inv State.reset

/-- After a reset DEG, K and TOTAL are 0 and so in range, and GEN has no bit set: the first row to fail is the
generator's top bit, whichever length row is tested (R193). -/
theorem failingRow_zero {p : Params} {lenFails : Prop} [Decidable lenFails] (hlen : ¬ lenFails) :
    failingRow p lenFails 0 0 = .genTop := by
  rw [failingRow, if_neg (not_not_intro (Nat.zero_le _)), if_neg hlen]
  rfl

theorem not_generatorPre_zero (p : Params) (r : Nat) : ¬ GeneratorPre p 0 r := by
  simp [GeneratorPre]

/-- Settles O16: the check of each operation fails at the top bit of GEN = 0, and the record names DEG and GEN. -/
theorem operationStraightAfterResetFaultsGenTop : Obligations.OperationStraightAfterResetFaultsGenTop := by
  intro s i hi
  have hdivider : checkDivider s.params 0 0 0 = some .genTop :=
    (checkDivider_of_not_pre fun h => not_generatorPre_zero _ _ h.generatorPre).trans
      (congrArg some (failingRow_zero (by simp)))
  have hcodec : checkCodec s.params 0 0 0 = some .genTop :=
    (checkCodec_of_not_pre fun h => not_generatorPre_zero _ _ h.generatorPre).trans
      (congrArg some (failingRow_zero (by simp)))
  cases i with
  | nop => exact absurd rfl hi
  | divide => exact congrArg (finishOperation .divide · s.resetEvent) (divide_of_check 0 hdivider)
  | computeFcs => exact congrArg (finishOperation .computeFcs · s.resetEvent) (computeFcs_of_check 0 hcodec)
  | verify => exact congrArg (finishOperation .verify · s.resetEvent) (syndrome_of_check 0 0 hcodec)

/-- Settles O46, by running the worked frame's two phases on the model. -/
theorem splitFromClearedRegisterIsWrong : Obligations.SplitFromClearedRegisterIsWrong := by
  refine ⟨?firstPhase, ?fromItsRegister, ?fromCleared⟩
  case firstPhase => decide
  case fromItsRegister => decide
  case fromCleared => decide

end Sys2Proof.Machine
end

section
/-!
PROOFS. Laws of the codec (41_codec.md section 3): the syndrome and the errors it shows (R137 to R140), degenerate
operands and even generators (R141, R142), and COMPUTE_FCS and VERIFY in polynomials (R130, R131).
-/

namespace Sys2Proof.Machine

/-! ### Streams as numbers -/

theorem fcsStream_eq_mul (data k r : Nat) : fcsStream data k r = data % 2 ^ k * 2 ^ r := by
  rw [fcsStream, concat, Nat.or_zero, Nat.shiftLeft_eq, maskN]

/-- A frame as a number, which is also how an error pattern is read (R132, R139). -/
theorem syndromeStream_eq_errorPattern (data k r fcs : Nat) :
    syndromeStream data k r fcs = errorPattern k r data fcs := by
  rw [syndromeStream, concat, ← Nat.shiftLeft_add_eq_or_of_lt (maskN_lt r fcs), Nat.shiftLeft_eq, errorPattern]

/-- A frame received with errors is the frame sent XOR the error pattern (R139). -/
theorem syndromeStream_xor (data ed k r fcs ef : Nat) :
    syndromeStream (data ^^^ ed) k r (fcs ^^^ ef) =
      syndromeStream data k r fcs ^^^ errorPattern k r ed ef := by
  rw [← syndromeStream_eq_errorPattern]
  simp only [syndromeStream_eq_xor, fcsStream, concat, Nat.or_zero, maskN_xor, Nat.shiftLeft_xor_distrib]
  ac_rfl

/-! ### Remainders that are 0 -/

namespace Gf2.IsRemainder

variable {p : Params} {a g r x : Nat}

theorem eq_zero_iff_dvd (h : Gf2.IsRemainder a g r x) (hg : GeneratorPre p g r) :
    x = 0 ↔ Gf2.poly g ∣ Gf2.poly a := by
  obtain ⟨-, h⟩ := h
  rw [← Polynomial.modByMonic_eq_zero_iff_dvd hg.monic_poly, ← h, ← poly_zero, poly_injective.eq_iff]

/-- Division by an even generator leaves an even stream even, because the generator's multiples are even (R142). -/
theorem even_of_even (h : Gf2.IsRemainder a g r x) (hg : g.testBit 0 = false) (ha : a.testBit 0 = false) :
    x.testBit 0 = false := by
  obtain ⟨-, h⟩ := h
  have hdivision := Polynomial.modByMonic_add_div (Gf2.poly a) (Gf2.poly g)
  rw [← h] at hdivision
  have hcoeff := congrArg (Polynomial.coeff · 0) hdivision
  simpa [Polynomial.mul_coeff_zero, coeff_poly, hg, ha] using hcoeff

end Gf2.IsRemainder

section
variable {p : Params} {data k g r fcs c x : Nat}

/-- A frame with its own FCS has remainder 0 (R137). -/
theorem isRemainder_own_fcs (hc : Gf2.IsRemainder (fcsStream data k r) g r c) (hg : GeneratorPre p g r) :
    Gf2.IsRemainder (syndromeStream data k r c) g r 0 := by
  have hself := hc.xor (Gf2.IsRemainder.self hg (maskN_lt r c))
  obtain ⟨hlt, -⟩ := hc
  rwa [← syndromeStream_eq_xor, maskN_of_lt hlt, Nat.xor_self] at hself

end

/-! ### The syndrome -/

/-- Settles O40: the syndrome is the XOR of the two FCS values, which is 0 exactly when they are the same. -/
theorem syndromeIsFcsDifference : Obligations.SyndromeIsFcsDifference := by
  intro p data k g r fcs h
  obtain ⟨c, hc, hcrem⟩ := computeFcs_ok data h
  obtain ⟨x, hx, hxrem⟩ := syndrome_ok data fcs h
  have hxor : x.rem = c.rem ^^^ (fcs % 2 ^ r) := syndrome_eq_xor hcrem hxrem h.generatorPre
  have hzero : x.rem = 0 ↔ fcs % 2 ^ r = c.rem := by rw [hxor, Nat.xor_eq_zero_iff, eq_comm]
  exact ⟨c, x, hc, hx, hxor, by rw [verify_of_syndrome hx, decide_eq_decide.mpr hzero]⟩

/-- Settles O41: a frame with its own FCS has remainder 0, so that of the frame received is the error pattern's. -/
theorem errorUndetectedExactlyWhenMultiple : Obligations.ErrorUndetectedExactlyWhenMultiple := by
  intro p data k g r ed ef h
  have hg := h.generatorPre
  obtain ⟨c, hc, hcrem⟩ := computeFcs_ok data h
  obtain ⟨x, hx, hxrem⟩ := syndrome_ok (data ^^^ ed) (c.rem ^^^ ef) h
  obtain ⟨e, he, herem⟩ := divide_ok (errorPattern k r ed ef) h.dividerPre
  rw [maskN_of_lt (syndromeStream_eq_errorPattern ed k r ef ▸ syndromeStream_lt ed k r ef)] at herem
  rw [syndromeStream_xor] at hxrem
  have hsame : x.rem = e.rem := by
    rw [hxrem.unique ((isRemainder_own_fcs hcrem hg).xor herem), Nat.zero_xor]
  refine ⟨c, e, _, hc, he, verify_of_syndrome hx, ?_, ?_⟩
  · rw [decide_eq_true_iff, hsame]
  · rw [decide_eq_true_iff, hsame, herem.eq_zero_iff_dvd hg]

/-! ### Single-bit errors -/

theorem poly_two_pow (i : Nat) : Gf2.poly (2 ^ i) = Polynomial.X ^ i := by
  ext j
  rw [coeff_poly, Polynomial.coeff_X_pow, Nat.testBit_two_pow]
  simp [eq_comm]

/-- A generator of degree at least 1 with bit 0 set has a factor other than x, so it divides no power of x (R140). -/
theorem not_poly_dvd_X_pow {p : Params} {g r : Nat} (hg : GeneratorPre p g r) (hr : 1 ≤ r)
    (hlow : g.testBit 0 = true) (i : Nat) : ¬ Gf2.poly g ∣ Polynomial.X ^ i := by
  intro hdvd
  obtain ⟨j, -, hassoc⟩ := (dvd_prime_pow Polynomial.prime_X i).mp hdvd
  have hpow : Gf2.poly g = Polynomial.X ^ j :=
    Polynomial.eq_of_monic_of_associated hg.monic_poly (Polynomial.monic_X_pow j) hassoc
  have hdegree : j = r := by
    have := hg.degree_poly
    rw [hpow, Polynomial.degree_X_pow] at this
    exact_mod_cast this
  have hcoeff := coeff_poly g 0
  rw [hpow, Polynomial.coeff_X_pow, if_neg (by omega), hlow] at hcoeff
  exact zero_ne_one hcoeff

/-- The flipped bit i of a frame is in the FCS below r and in the data from r up; its pattern is 2^i (R140). -/
theorem errorPattern_single_bit {i k r : Nat} (hi : i < k + r) :
    errorPattern k r (if i < r then 0 else 2 ^ (i - r)) (if i < r then 2 ^ i else 0) = 2 ^ i := by
  by_cases hir : i < r
  · have hmask : maskN r (2 ^ i) = 2 ^ i := maskN_of_lt (Nat.pow_lt_pow_right one_lt_two hir)
    rw [errorPattern, if_pos hir, if_pos hir, hmask]
    simp [maskN]
  · have hmask : maskN k (2 ^ (i - r)) = 2 ^ (i - r) := maskN_of_lt (Nat.pow_lt_pow_right one_lt_two (by omega))
    rw [errorPattern, if_neg hir, if_neg hir, hmask, ← pow_add, Nat.sub_add_cancel (Nat.le_of_not_lt hir)]
    simp [maskN]

/-- Settles O42: the pattern of one flipped bit is a power of x, which the generator does not divide. -/
theorem singleBitErrorIsDetected : Obligations.SingleBitErrorIsDetected := by
  intro p data k g r i h hr hlow hi
  obtain ⟨c, -, accepted, hc, -, hverify, -, haccepted⟩ := errorUndetectedExactlyWhenMultiple p data k g r
    (if i < r then 0 else 2 ^ (i - r)) (if i < r then 2 ^ i else 0) h
  rw [errorPattern_single_bit hi, poly_two_pow] at haccepted
  have hrejected : accepted = false :=
    Bool.eq_false_iff.mpr fun ht => not_poly_dvd_X_pow h.generatorPre hr hlow i (haccepted.mp ht)
  refine ⟨c, hc, ?_⟩
  rw [← hrejected, ← hverify]
  split_ifs <;> simp only [Nat.xor_zero]

/-! ### Degenerate operands -/

/-- Settles O43: remainders of no bits are 0, a stream without data is the masked FCS, and the masks are the codec's
own. -/
theorem codecDegenerateOperands : Obligations.CodecDegenerateOperands := by
  intro p data k g r fcs h
  obtain ⟨c, hc, hcrem⟩ := computeFcs_ok data h
  obtain ⟨x, hx, hxrem⟩ := syndrome_ok data fcs h
  refine ⟨c, x, hc, hx, fun hr => ⟨hcrem.eq_zero_of_degree_zero hr, hxrem.eq_zero_of_degree_zero hr⟩, fun hk => ?_,
    (computeFcs_congr _ _ _ (Nat.mod_mod _ _)).trans hc,
    (syndrome_congr _ _ (Nat.mod_mod _ _) (Nat.mod_mod _ _)).trans hx⟩
  have hzero : c.rem = 0 := fcs_eq_zero_of_width_zero hcrem h.generatorPre hk
  refine ⟨hzero, ?_⟩
  rw [syndrome_eq_xor hcrem hxrem h.generatorPre, hzero, Nat.zero_xor, maskN]

/-! ### The codec's commands -/

section
variable {s : State}

/-- COMPUTE_FCS on legal registers completes with the remainder of the shifted data, whole in RESULT (R153). -/
theorem exec_computeFcs_isRemainder (h : s.CodecReady) : ∃ c : Division,
    exec .computeFcs s = .next (complete c s) ∧ (complete c s).result.toNat = c.rem ∧
      Gf2.IsRemainder (fcsStream s.data.toNat s.k.toNat s.deg.toNat) s.gen.toNat s.deg.toNat c.rem := by
  obtain ⟨c, hc, hrem⟩ := computeFcs_ok s.data.toNat h
  obtain ⟨hr, -⟩ := h
  have ⟨hlt, _⟩ := hrem
  exact ⟨c, congrArg (finishOperation .computeFcs · s) hc, complete_result_toNat hr hlt, hrem⟩

/-- VERIFY on legal registers completes with the remainder of the frame (R154). -/
theorem exec_verify_isRemainder (h : s.CodecReady) : ∃ x : Division,
    exec .verify s = .next (complete x s) ∧
      Gf2.IsRemainder (syndromeStream s.data.toNat s.k.toNat s.deg.toNat s.fcs.toNat) s.gen.toNat s.deg.toNat
        x.rem := by
  obtain ⟨x, hx, hrem⟩ := syndrome_ok s.data.toNat s.fcs.toNat h
  exact ⟨x, congrArg (finishOperation .verify · s) hx, hrem⟩

end

theorem complete_zero_iff (d : Division) (s : State) : (complete d s).zero = true ↔ d.rem = 0 := beq_iff_eq

/-- Settles O37: RESULT holds the remainder whole, and ZERO is its zero test. -/
theorem computeFcsIsRemainderOfShiftedData : Obligations.ComputeFcsIsRemainderOfShiftedData := by
  intro s h
  obtain ⟨c, hexec, hresult, hrem⟩ := exec_computeFcs_isRemainder h
  refine ⟨_, hexec, ?_, (complete_zero_iff c s).trans (complete_result_eq_zero_iff hresult).symm⟩
  rwa [hresult, ← fcsStream_eq_mul]

/-- Settles O38: ZERO is 1 exactly when the remainder of the frame is 0, that is when the generator divides it. -/
theorem verifyAcceptsExactlyTheMultiples : Obligations.VerifyAcceptsExactlyTheMultiples := by
  intro s h
  obtain ⟨x, hexec, hrem⟩ := exec_verify_isRemainder h
  refine ⟨_, hexec, ?_⟩
  rw [complete_zero_iff, hrem.eq_zero_iff_dvd h.generatorPre, syndromeStream_eq_errorPattern]
  rfl

/-- Settles O39: RESULT is the frame's own FCS, so the frame with it in FCS has syndrome 0. -/
theorem freshFcsVerifies : Obligations.FreshFcsVerifies := by
  intro s h
  obtain ⟨c, hcompute, hresult, hcrem⟩ := exec_computeFcs_isRemainder h
  obtain ⟨x, hverify, hxrem⟩ := exec_verify_isRemainder (s := (complete c s).setFcs (complete c s).result) h
  rw [State.setFcs_fcs, hresult] at hxrem
  have hzero : x.rem = 0 := hxrem.unique (isRemainder_own_fcs hcrem h.generatorPre)
  exact ⟨_, _, _, hcompute, rfl, hverify, (complete_zero_iff x _).mpr hzero, congrArg (BitVec.ofNat 64) hzero⟩

/-- Settles O44: the generator and, from degree 1, the shifted data are even, so the remainder is. -/
theorem evenGeneratorGivesEvenFcs : Obligations.EvenGeneratorGivesEvenFcs := by
  intro s hpolicy hdeg hlen htop hhigh heven
  have h : s.CodecReady := ⟨hdeg, hlen, htop, hhigh, fun hfault => by simp [hpolicy] at hfault⟩
  obtain ⟨c, hexec, hresult, hrem⟩ := exec_computeFcs_isRemainder h
  refine ⟨_, hexec, fun hr => ?_⟩
  have hstream : (fcsStream s.data.toNat s.k.toNat s.deg.toNat).testBit 0 = false := by
    rw [fcsStream, concat, Nat.or_zero, Nat.testBit_shiftLeft]
    simp [Nat.not_le.mpr hr]
  rw [hresult]
  exact hrem.even_of_even heven hstream

end Sys2Proof.Machine
end
